-- ==== Sys2Proof/Word.lean ====
section
/-! DEFINITION. The word types of the RISC-V base user-level ISA v1.0 and the two sizes of a machine word.

A value of `XPRLEN` bits (spec/00_scope.md R8) is held in an `XWord`, a 64-bit vector: on RV64 it is the value itself, on
RV32 the 32-bit value zero-extended (log entry 23).  The narrowing, extending and reading of such a value as a number are
in `Sys2Proof/Machine/Operands.lean`. -/

namespace Sys2Proof

/-- A byte of memory (R42). -/
abbrev Byte := BitVec 8

/-- A register, program-counter or address value of `XPRLEN` bits, held zero-extended to 64 bits. -/
abbrev XWord := BitVec 64

/-- A register specifier, a 5-bit number 0 to 31 (R84). -/
abbrev Reg := BitVec 5

/-- An instruction, 32 bits (R80). -/
abbrev IWord := BitVec 32

/-- The two variants of the base ISA (R2, R8). -/
inductive Xlen where
  | rv32
  | rv64
  deriving DecidableEq, Repr

/-- `XPRLEN` as a number (R8). -/
def Xlen.bits : Xlen → Nat
  | .rv32 => 32
  | .rv64 => 64

end Sys2Proof
end

