-- ==== Sys2Proof/Config.lean ====
section
/-! DEFINITION. What the spec leaves to the implementation (spec/00_scope.md R9, spec/45_fp_arithmetic.md R302) as one
record of plain data, and the free values: opaque constants that no proof can look into.

The record is a field of the state that no step changes, so a statement about every state holds for every choice. -/

namespace Sys2Proof

/-- Byte order of the memory system, `ENDIAN` (R50). -/
inductive Endian where
  | little
  | big
  deriving DecidableEq, Repr

/-- The kind of a memory access, as `MemMap` and `AccessFault` name it (R62, R476). -/
inductive AccessKind where
  | fetch
  | load
  | store
  deriving DecidableEq, Repr

/-- What a byte address permits (R62). -/
structure Perm where
  read  : Bool
  write : Bool
  exec  : Bool
  deriving DecidableEq, Repr

/-- One region of the memory map: the addresses `base .. base + size - 1` and what they permit. -/
structure MemRegion where
  base : Nat
  size : Nat
  perm : Perm
  deriving DecidableEq, Repr

/-- `MemMap` (R62): the first region that holds an address decides; an address in no region has `elsewhere`. -/
structure MemMap where
  regions   : List MemRegion
  elsewhere : Perm
  deriving DecidableEq, Repr

/-- When tininess is judged, `FPConfig.tininess` (R302). -/
inductive Tininess where
  | beforeRounding
  | afterRounding
  deriving DecidableEq, Repr

/-- Why a conversion to an integer is invalid: the `kind` of `FPConfig.cvt_invalid_result` (R351). -/
inductive CvtInvalid where
  | nan
  | overflow
  | underflow
  deriving DecidableEq, Repr

/-- The integers of `w` bits that invalid conversions to one target deliver, one for each kind (R351). -/
structure InvalidInts (w : Nat) where
  nan       : BitVec w
  overflow  : BitVec w
  underflow : BitVec w
  deriving DecidableEq, Repr

/-- `FPConfig.cvt_invalid_result` (R302, R351), a function of the width, the signedness and the kind, as the table of its
values: any table is a choice of hardware, and no statement rests on one. -/
structure CvtInvalidResult where
  w  : InvalidInts 32
  wu : InvalidInts 32
  l  : InvalidInts 64
  lu : InvalidInts 64
  deriving DecidableEq, Repr

/-- `FPConfig.fmin_fmax_zero` (R302): for each order of the operands `+0` and `-0`, whether `FMIN` and `FMAX` answer `-0`. -/
structure ZeroPick where
  minPosNeg : Bool
  minNegPos : Bool
  maxPosNeg : Bool
  maxNegPos : Bool
  deriving DecidableEq, Repr

/-- `FPConfig.cmp_flags` (R302, R383): which comparisons raise NV when an operand is a quiet NaN and none is signaling. -/
structure CmpFlags where
  feq : Bool
  flt : Bool
  fle : Bool
  deriving DecidableEq, Repr

/-- `FPConfig.cvt_nan_sign` (R302): the sign of the NaN that FCVT.S.D and FCVT.D.S deliver, for each sign of the operand. -/
structure NanSign where
  ofPos : Bool
  ofNeg : Bool
  deriving DecidableEq, Repr

/-- `FPConfig` (R302), field by field. -/
structure FPConfig where
  tininess         : Tininess
  zeroPick         : ZeroPick
  fmaInfZeroQnanNV : Bool
  cvtInvalid       : CvtInvalidResult
  cvtNanSign       : NanSign
  cmpFlags         : CmpFlags
  cvtInexact       : Bool
  deriving DecidableEq, Repr

/-- The parameters of R9 that are fixed for a whole run. -/
structure Config where
  xlen   : Xlen
  endian : Endian
  memMap : MemMap
  fp     : FPConfig
  deriving DecidableEq, Repr

namespace Config

/-! ### Free values

Each is applied to the number of the draw, a counter of the state that every step advances, so that each step draws
afresh. None has a body. -/

/-- Cycles that pass during a step, `CycleOracle` (R433); on RV64 no more of them count than the counter has room for. -/
opaque cycleTicks (draw : Nat) : Nat

/-- Real-time ticks that pass during a step, `TimeOracle` (R434); on RV64 no more of them count than the counter has room
for. -/
opaque timeTicks (draw : Nat) : Nat

/-- Whether the fetch of a step, at a pc, reads the old contents of the addresses stored to since the last FENCE.I, or the new
ones: one choice for the whole fetch (R70, R422). -/
opaque fetchSeesOld (draw pc : Nat) : Bool

/-- What operand number `slot` reads as single from an f register that was last written as double (U7). -/
opaque singleOfDouble (draw slot : Nat) (held : BitVec 64) : BitVec 32

/-- What operand number `slot` reads as double from an f register that was last written as single (U7). -/
opaque doubleOfSingle (draw slot : Nat) (held : BitVec 32) : BitVec 64

end Config

/-- Everything permitted. -/
def Perm.all : Perm := { read := true, write := true, exec := true }

/-- The default `MemMap`: every address readable, writable and executable (R9, R62). -/
def MemMap.default : MemMap := { regions := [], elsewhere := Perm.all }

/-- The saturation that R351 suggests (D21): a NaN and an overflow give the highest integer of the target, an underflow the
lowest. -/
def CvtInvalidResult.saturate : CvtInvalidResult where
  w  := { nan := 0x7FFFFFFF, overflow := 0x7FFFFFFF, underflow := 0x80000000 }
  wu := { nan := 0xFFFFFFFF, overflow := 0xFFFFFFFF, underflow := 0 }
  l  := { nan := 0x7FFFFFFFFFFFFFFF, overflow := 0x7FFFFFFFFFFFFFFF, underflow := 0x8000000000000000 }
  lu := { nan := 0xFFFFFFFFFFFFFFFF, overflow := 0xFFFFFFFFFFFFFFFF, underflow := 0 }

/-- The defaults of R302 (D21). -/
def FPConfig.default : FPConfig where
  tininess         := .afterRounding
  zeroPick         := { minPosNeg := true, minNegPos := true, maxPosNeg := false, maxNegPos := false }
  fmaInfZeroQnanNV := true
  cvtInvalid       := CvtInvalidResult.saturate
  cvtNanSign       := { ofPos := false, ofNeg := true }
  cmpFlags         := { feq := false, flt := true, fle := true }
  cvtInexact       := true

/-- The configuration after reset: RV64 (log entry 1), and the defaults of R9. -/
def Config.default : Config where
  xlen   := .rv64
  endian := .little
  memMap := MemMap.default
  fp     := FPConfig.default

end Sys2Proof
end

