-- ==== Sys2Proof/Syntax.lean ====
section
/-! DEFINITION. The instruction set as syntax: one constructor per row of spec/opcode_table.json, in the table's order,
with the row's variable fields in the order of its assembler form (R110, R117).

The fields are the bits of the encoding.  FENCE and FENCE.I carry the ignored fields `rd`, `rs1` and `imm12` (R113), so that
encoding an instruction gives its word back.  `brk` is BREAK. -/

namespace Sys2Proof

/-- The 150 instructions of the base ISA (R3, R110). -/
inductive Instr where
  -- Control Transfer Instructions
  | j (off25 : BitVec 25)
  | jal (off25 : BitVec 25)
  | beq (rs1 rs2 : Reg) (imm12 : BitVec 12)
  | bne (rs1 rs2 : Reg) (imm12 : BitVec 12)
  | blt (rs1 rs2 : Reg) (imm12 : BitVec 12)
  | bge (rs1 rs2 : Reg) (imm12 : BitVec 12)
  | bltu (rs1 rs2 : Reg) (imm12 : BitVec 12)
  | bgeu (rs1 rs2 : Reg) (imm12 : BitVec 12)
  | jalrC (rd rs1 : Reg) (imm12 : BitVec 12)
  | jalrR (rd rs1 : Reg) (imm12 : BitVec 12)
  | jalrJ (rd rs1 : Reg) (imm12 : BitVec 12)
  | rdnpc (rd : Reg)
  -- Memory Instructions
  | lb (rd rs1 : Reg) (imm12 : BitVec 12)
  | lh (rd rs1 : Reg) (imm12 : BitVec 12)
  | lw (rd rs1 : Reg) (imm12 : BitVec 12)
  | ld (rd rs1 : Reg) (imm12 : BitVec 12)
  | lbu (rd rs1 : Reg) (imm12 : BitVec 12)
  | lhu (rd rs1 : Reg) (imm12 : BitVec 12)
  | lwu (rd rs1 : Reg) (imm12 : BitVec 12)
  | sb (rs1 rs2 : Reg) (imm12 : BitVec 12)
  | sh (rs1 rs2 : Reg) (imm12 : BitVec 12)
  | sw (rs1 rs2 : Reg) (imm12 : BitVec 12)
  | sd (rs1 rs2 : Reg) (imm12 : BitVec 12)
  -- Atomic Memory Instructions
  | amoaddW (rd rs1 rs2 : Reg)
  | amoswapW (rd rs1 rs2 : Reg)
  | amoandW (rd rs1 rs2 : Reg)
  | amoorW (rd rs1 rs2 : Reg)
  | amominW (rd rs1 rs2 : Reg)
  | amomaxW (rd rs1 rs2 : Reg)
  | amominuW (rd rs1 rs2 : Reg)
  | amomaxuW (rd rs1 rs2 : Reg)
  | amoaddD (rd rs1 rs2 : Reg)
  | amoswapD (rd rs1 rs2 : Reg)
  | amoandD (rd rs1 rs2 : Reg)
  | amoorD (rd rs1 rs2 : Reg)
  | amominD (rd rs1 rs2 : Reg)
  | amomaxD (rd rs1 rs2 : Reg)
  | amominuD (rd rs1 rs2 : Reg)
  | amomaxuD (rd rs1 rs2 : Reg)
  -- Integer Compute Instructions
  | addi (rd rs1 : Reg) (imm12 : BitVec 12)
  | slti (rd rs1 : Reg) (imm12 : BitVec 12)
  | sltiu (rd rs1 : Reg) (imm12 : BitVec 12)
  | xori (rd rs1 : Reg) (imm12 : BitVec 12)
  | ori (rd rs1 : Reg) (imm12 : BitVec 12)
  | andi (rd rs1 : Reg) (imm12 : BitVec 12)
  | slli (rd rs1 : Reg) (shamt : BitVec 6)
  | srli (rd rs1 : Reg) (shamt : BitVec 6)
  | srai (rd rs1 : Reg) (shamt : BitVec 6)
  | add (rd rs1 rs2 : Reg)
  | sub (rd rs1 rs2 : Reg)
  | sll (rd rs1 rs2 : Reg)
  | slt (rd rs1 rs2 : Reg)
  | sltu (rd rs1 rs2 : Reg)
  | xor (rd rs1 rs2 : Reg)
  | srl (rd rs1 rs2 : Reg)
  | sra (rd rs1 rs2 : Reg)
  | or (rd rs1 rs2 : Reg)
  | and (rd rs1 rs2 : Reg)
  | mul (rd rs1 rs2 : Reg)
  | mulh (rd rs1 rs2 : Reg)
  | mulhsu (rd rs1 rs2 : Reg)
  | mulhu (rd rs1 rs2 : Reg)
  | div (rd rs1 rs2 : Reg)
  | divu (rd rs1 rs2 : Reg)
  | rem (rd rs1 rs2 : Reg)
  | remu (rd rs1 rs2 : Reg)
  | lui (rd : Reg) (imm20 : BitVec 20)
  -- 32-bit Integer Compute Instructions
  | addiw (rd rs1 : Reg) (imm12 : BitVec 12)
  | slliw (rd rs1 : Reg) (shamt : BitVec 5)
  | srliw (rd rs1 : Reg) (shamt : BitVec 5)
  | sraiw (rd rs1 : Reg) (shamt : BitVec 5)
  | addw (rd rs1 rs2 : Reg)
  | subw (rd rs1 rs2 : Reg)
  | sllw (rd rs1 rs2 : Reg)
  | srlw (rd rs1 rs2 : Reg)
  | sraw (rd rs1 rs2 : Reg)
  | mulw (rd rs1 rs2 : Reg)
  | divw (rd rs1 rs2 : Reg)
  | divuw (rd rs1 rs2 : Reg)
  | remw (rd rs1 rs2 : Reg)
  | remuw (rd rs1 rs2 : Reg)
  -- Floating-Point Memory Instructions
  | flw (rd rs1 : Reg) (imm12 : BitVec 12)
  | fld (rd rs1 : Reg) (imm12 : BitVec 12)
  | fsw (rs1 rs2 : Reg) (imm12 : BitVec 12)
  | fsd (rs1 rs2 : Reg) (imm12 : BitVec 12)
  -- Floating-Point Compute Instructions
  | faddS (rd rs1 rs2 : Reg) (rm : BitVec 3)
  | fsubS (rd rs1 rs2 : Reg) (rm : BitVec 3)
  | fmulS (rd rs1 rs2 : Reg) (rm : BitVec 3)
  | fdivS (rd rs1 rs2 : Reg) (rm : BitVec 3)
  | fsqrtS (rd rs1 : Reg) (rm : BitVec 3)
  | fminS (rd rs1 rs2 : Reg)
  | fmaxS (rd rs1 rs2 : Reg)
  | faddD (rd rs1 rs2 : Reg) (rm : BitVec 3)
  | fsubD (rd rs1 rs2 : Reg) (rm : BitVec 3)
  | fmulD (rd rs1 rs2 : Reg) (rm : BitVec 3)
  | fdivD (rd rs1 rs2 : Reg) (rm : BitVec 3)
  | fsqrtD (rd rs1 : Reg) (rm : BitVec 3)
  | fminD (rd rs1 rs2 : Reg)
  | fmaxD (rd rs1 rs2 : Reg)
  | fmaddS (rd rs1 rs2 rs3 : Reg) (rm : BitVec 3)
  | fmsubS (rd rs1 rs2 rs3 : Reg) (rm : BitVec 3)
  | fnmsubS (rd rs1 rs2 rs3 : Reg) (rm : BitVec 3)
  | fnmaddS (rd rs1 rs2 rs3 : Reg) (rm : BitVec 3)
  | fmaddD (rd rs1 rs2 rs3 : Reg) (rm : BitVec 3)
  | fmsubD (rd rs1 rs2 rs3 : Reg) (rm : BitVec 3)
  | fnmsubD (rd rs1 rs2 rs3 : Reg) (rm : BitVec 3)
  | fnmaddD (rd rs1 rs2 rs3 : Reg) (rm : BitVec 3)
  -- Floating-Point Move & Conversion Instructions
  | fsgnjS (rd rs1 rs2 : Reg)
  | fsgnjnS (rd rs1 rs2 : Reg)
  | fsgnjxS (rd rs1 rs2 : Reg)
  | fsgnjD (rd rs1 rs2 : Reg)
  | fsgnjnD (rd rs1 rs2 : Reg)
  | fsgnjxD (rd rs1 rs2 : Reg)
  | fcvtSD (rd rs1 : Reg) (rm : BitVec 3)
  | fcvtDS (rd rs1 : Reg) (rm : BitVec 3)
  -- Integer to Floating-Point Move & Conversion Instructions
  | fcvtSL (rd rs1 : Reg) (rm : BitVec 3)
  | fcvtSLU (rd rs1 : Reg) (rm : BitVec 3)
  | fcvtSW (rd rs1 : Reg) (rm : BitVec 3)
  | fcvtSWU (rd rs1 : Reg) (rm : BitVec 3)
  | fcvtDL (rd rs1 : Reg) (rm : BitVec 3)
  | fcvtDLU (rd rs1 : Reg) (rm : BitVec 3)
  | fcvtDW (rd rs1 : Reg) (rm : BitVec 3)
  | fcvtDWU (rd rs1 : Reg) (rm : BitVec 3)
  | mxtfS (rd rs1 : Reg)
  | mxtfD (rd rs1 : Reg)
  | mtfsr (rd rs1 : Reg)
  -- Floating-Point to Integer Move & Conversion Instructions
  | fcvtLS (rd rs1 : Reg) (rm : BitVec 3)
  | fcvtLUS (rd rs1 : Reg) (rm : BitVec 3)
  | fcvtWS (rd rs1 : Reg) (rm : BitVec 3)
  | fcvtWUS (rd rs1 : Reg) (rm : BitVec 3)
  | fcvtLD (rd rs1 : Reg) (rm : BitVec 3)
  | fcvtLUD (rd rs1 : Reg) (rm : BitVec 3)
  | fcvtWD (rd rs1 : Reg) (rm : BitVec 3)
  | fcvtWUD (rd rs1 : Reg) (rm : BitVec 3)
  | mftxS (rd rs2 : Reg)
  | mftxD (rd rs2 : Reg)
  | mffsr (rd : Reg)
  -- Floating-Point Compare Instructions
  | feqS (rd rs1 rs2 : Reg)
  | fltS (rd rs1 rs2 : Reg)
  | fleS (rd rs1 rs2 : Reg)
  | feqD (rd rs1 rs2 : Reg)
  | fltD (rd rs1 rs2 : Reg)
  | fleD (rd rs1 rs2 : Reg)
  -- Miscellaneous Memory Instructions
  | fenceI (rd rs1 : Reg) (imm12 : BitVec 12)
  | fence (rd rs1 : Reg) (imm12 : BitVec 12)
  -- System Instructions
  | syscall
  | brk
  | rdcycle (rd : Reg)
  | rdtime (rd : Reg)
  | rdinstret (rd : Reg)
  deriving DecidableEq, Repr

end Sys2Proof
end

