-- ==== Sys2Proof/Decode.lean ====
section
/-! DEFINITION. From the bytes of memory to an instruction and back (spec/30_encoding.md, spec/20_memory.md R55).

Decoding follows R91: the length bits, then the one row of the opcode table whose fixed fields the word has.  A row is
written by its format's builder from the fields that the spec fixes; the encoder writes the same fields in the same order.
Decoding does not depend on the variant: the variant and rounding-mode checks are made by the meanings. -/

namespace Sys2Proof

/-! ### Fields (R92) -/

def fieldRd (w : IWord) : Reg := w.extractLsb' 27 5
def fieldRs1 (w : IWord) : Reg := w.extractLsb' 22 5
def fieldRs2 (w : IWord) : Reg := w.extractLsb' 17 5
def fieldRs3 (w : IWord) : Reg := w.extractLsb' 12 5
def fieldRm (w : IWord) : BitVec 3 := w.extractLsb' 9 3

/-- The I-type immediate, bits 21:10 (R85). -/
def fieldImmI (w : IWord) : BitVec 12 := w.extractLsb' 10 12

/-- The B-type immediate, bits 31:27 then bits 16:10 (R86). -/
def fieldImmB (w : IWord) : BitVec 12 := w.extractLsb' 27 5 ++ w.extractLsb' 10 7

/-- The L-type immediate, bits 26:7 (R87). -/
def fieldImm20 (w : IWord) : BitVec 20 := w.extractLsb' 7 20

/-- The J-type offset, bits 31:7 (R88). -/
def fieldOff25 (w : IWord) : BitVec 25 := w.extractLsb' 7 25

/-- The shift amount of SLLI, SRLI and SRAI, bits 15:10 (R89). -/
def fieldShamt (w : IWord) : BitVec 6 := w.extractLsb' 10 6

/-- The shift amount of SLLIW, SRLIW and SRAIW, bits 14:10 (R89). -/
def fieldShamtW (w : IWord) : BitVec 5 := w.extractLsb' 10 5

/-! ### Formats (R82): the words of an instruction, most significant field first -/

def encR (rd rs1 rs2 : Reg) (funct10 : BitVec 10) (op : BitVec 7) : IWord := rd ++ rs1 ++ rs2 ++ funct10 ++ op

def encR4 (rd rs1 rs2 rs3 : Reg) (rm : BitVec 3) (fmt : BitVec 2) (op : BitVec 7) : IWord :=
  rd ++ rs1 ++ rs2 ++ rs3 ++ rm ++ fmt ++ op

def encI (rd rs1 : Reg) (imm12 : BitVec 12) (funct3 : BitVec 3) (op : BitVec 7) : IWord := rd ++ rs1 ++ imm12 ++ funct3 ++ op

def encB (rs1 rs2 : Reg) (imm12 : BitVec 12) (funct3 : BitVec 3) (op : BitVec 7) : IWord :=
  imm12.extractLsb' 7 5 ++ rs1 ++ rs2 ++ imm12.extractLsb' 0 7 ++ funct3 ++ op

def encL (rd : Reg) (imm20 : BitVec 20) (op : BitVec 7) : IWord := rd ++ imm20 ++ op

def encJ (off25 : BitVec 25) (op : BitVec 7) : IWord := off25 ++ op

/-- Shift by a 6-bit constant: I-type with the shift type in bits 21:16 (R89). -/
def encSh (rd rs1 : Reg) (kind : BitVec 6) (shamt : BitVec 6) (funct3 : BitVec 3) (op : BitVec 7) : IWord :=
  rd ++ rs1 ++ kind ++ shamt ++ funct3 ++ op

/-- Shift by a 5-bit constant: I-type with the shift type and a 0 in bits 21:15 (R89). -/
def encShW (rd rs1 : Reg) (kind : BitVec 7) (shamt : BitVec 5) (funct3 : BitVec 3) (op : BitVec 7) : IWord :=
  rd ++ rs1 ++ kind ++ shamt ++ funct3 ++ op

/-- OP-FP with two sources and a rounding mode: `funct10 = funct5, rm, fmt` (R83, R104). -/
def encFp2 (rd rs1 rs2 : Reg) (funct5 : BitVec 5) (rm : BitVec 3) (fmt : BitVec 2) (op : BitVec 7) : IWord :=
  rd ++ rs1 ++ rs2 ++ funct5 ++ rm ++ fmt ++ op

/-- OP-FP with one source and a rounding mode; the `rs2` field is 00000 (R104, R112). -/
def encFp1 (rd rs1 : Reg) (funct5 : BitVec 5) (rm : BitVec 3) (fmt : BitVec 2) (op : BitVec 7) : IWord :=
  rd ++ rs1 ++ 0#5 ++ funct5 ++ rm ++ fmt ++ op

/-- R-type with the source in `rs1` and `rs2` = 00000 (MXTF, MTFSR; R112). -/
def encSrc1 (rd rs1 : Reg) (funct10 : BitVec 10) (op : BitVec 7) : IWord := rd ++ rs1 ++ 0#5 ++ funct10 ++ op

/-- R-type with the source in `rs2` and `rs1` = 00000 (MFTX; R112, R378). -/
def encSrc2 (rd rs2 : Reg) (funct10 : BitVec 10) (op : BitVec 7) : IWord := rd ++ 0#5 ++ rs2 ++ funct10 ++ op

/-- A destination and nothing else: bits 26:7 are fixed (RDNPC, MFFSR, the counter reads; R112). -/
def encDest (rd : Reg) (fixed : BitVec 20) (op : BitVec 7) : IWord := rd ++ fixed ++ op

/-- No operand: bits 31:7 are fixed (SYSCALL, BREAK; R109). -/
def encNone (fixed : BitVec 25) (op : BitVec 7) : IWord := fixed ++ op

/-! ### Rows of the opcode table -/

/-- A row: the fixed bits of its words, and the instruction a word of the row stands for (R91). -/
structure Row where
  mask  : IWord
  fixed : IWord
  build : IWord → Instr

/-- A row matches when `(inst & mask) = match` (R91 step 2). -/
def Row.accepts (r : Row) (w : IWord) : Bool := w &&& r.mask == r.fixed

def rowR (funct10 : BitVec 10) (op : BitVec 7) (mk : Reg → Reg → Reg → Instr) : Row where
  mask  := 0x0001FFFF#32
  fixed := encR 0 0 0 funct10 op
  build w := mk (fieldRd w) (fieldRs1 w) (fieldRs2 w)

def rowR4 (fmt : BitVec 2) (op : BitVec 7) (mk : Reg → Reg → Reg → Reg → BitVec 3 → Instr) : Row where
  mask  := 0x000001FF#32
  fixed := encR4 0 0 0 0 0 fmt op
  build w := mk (fieldRd w) (fieldRs1 w) (fieldRs2 w) (fieldRs3 w) (fieldRm w)

def rowI (funct3 : BitVec 3) (op : BitVec 7) (mk : Reg → Reg → BitVec 12 → Instr) : Row where
  mask  := 0x000003FF#32
  fixed := encI 0 0 0 funct3 op
  build w := mk (fieldRd w) (fieldRs1 w) (fieldImmI w)

def rowB (funct3 : BitVec 3) (op : BitVec 7) (mk : Reg → Reg → BitVec 12 → Instr) : Row where
  mask  := 0x000003FF#32
  fixed := encB 0 0 0 funct3 op
  build w := mk (fieldRs1 w) (fieldRs2 w) (fieldImmB w)

def rowL (op : BitVec 7) (mk : Reg → BitVec 20 → Instr) : Row where
  mask  := 0x0000007F#32
  fixed := encL 0 0 op
  build w := mk (fieldRd w) (fieldImm20 w)

def rowJ (op : BitVec 7) (mk : BitVec 25 → Instr) : Row where
  mask  := 0x0000007F#32
  fixed := encJ 0 op
  build w := mk (fieldOff25 w)

def rowSh (kind : BitVec 6) (funct3 : BitVec 3) (op : BitVec 7) (mk : Reg → Reg → BitVec 6 → Instr) : Row where
  mask  := 0x003F03FF#32
  fixed := encSh 0 0 kind 0 funct3 op
  build w := mk (fieldRd w) (fieldRs1 w) (fieldShamt w)

def rowShW (kind : BitVec 7) (funct3 : BitVec 3) (op : BitVec 7) (mk : Reg → Reg → BitVec 5 → Instr) : Row where
  mask  := 0x003F83FF#32
  fixed := encShW 0 0 kind 0 funct3 op
  build w := mk (fieldRd w) (fieldRs1 w) (fieldShamtW w)

def rowFp2 (funct5 : BitVec 5) (fmt : BitVec 2) (op : BitVec 7) (mk : Reg → Reg → Reg → BitVec 3 → Instr) : Row where
  mask  := 0x0001F1FF#32
  fixed := encFp2 0 0 0 funct5 0 fmt op
  build w := mk (fieldRd w) (fieldRs1 w) (fieldRs2 w) (fieldRm w)

def rowFp1 (funct5 : BitVec 5) (fmt : BitVec 2) (op : BitVec 7) (mk : Reg → Reg → BitVec 3 → Instr) : Row where
  mask  := 0x003FF1FF#32
  fixed := encFp1 0 0 funct5 0 fmt op
  build w := mk (fieldRd w) (fieldRs1 w) (fieldRm w)

def rowSrc1 (funct10 : BitVec 10) (op : BitVec 7) (mk : Reg → Reg → Instr) : Row where
  mask  := 0x003FFFFF#32
  fixed := encSrc1 0 0 funct10 op
  build w := mk (fieldRd w) (fieldRs1 w)

def rowSrc2 (funct10 : BitVec 10) (op : BitVec 7) (mk : Reg → Reg → Instr) : Row where
  mask  := 0x07C1FFFF#32
  fixed := encSrc2 0 0 funct10 op
  build w := mk (fieldRd w) (fieldRs2 w)

def rowDest (fixed : BitVec 20) (op : BitVec 7) (mk : Reg → Instr) : Row where
  mask  := 0x07FFFFFF#32
  fixed := encDest 0 fixed op
  build w := mk (fieldRd w)

def rowNone (fixed : BitVec 25) (op : BitVec 7) (i : Instr) : Row where
  mask  := 0xFFFFFFFF#32
  fixed := encNone fixed op
  build _ := i

/-! ### The table (R94 to R109) -/

/-- Table 6, Control Transfer Instructions. -/
def rowsControl : List Row :=
  [ rowJ 0b1100111#7 .j,
    rowJ 0b1101111#7 .jal,
    rowB 0b000#3 0b1100011#7 .beq,
    rowB 0b001#3 0b1100011#7 .bne,
    rowB 0b100#3 0b1100011#7 .blt,
    rowB 0b101#3 0b1100011#7 .bge,
    rowB 0b110#3 0b1100011#7 .bltu,
    rowB 0b111#3 0b1100011#7 .bgeu,
    rowI 0b000#3 0b1101011#7 .jalrC,
    rowI 0b001#3 0b1101011#7 .jalrR,
    rowI 0b010#3 0b1101011#7 .jalrJ,
    rowDest 0b00000000000000000100#20 0b1101011#7 .rdnpc ]

/-- Table 6, Memory Instructions. -/
def rowsMemory : List Row :=
  [ rowI 0b000#3 0b0000011#7 .lb,
    rowI 0b001#3 0b0000011#7 .lh,
    rowI 0b010#3 0b0000011#7 .lw,
    rowI 0b011#3 0b0000011#7 .ld,
    rowI 0b100#3 0b0000011#7 .lbu,
    rowI 0b101#3 0b0000011#7 .lhu,
    rowI 0b110#3 0b0000011#7 .lwu,
    rowB 0b000#3 0b0100011#7 .sb,
    rowB 0b001#3 0b0100011#7 .sh,
    rowB 0b010#3 0b0100011#7 .sw,
    rowB 0b011#3 0b0100011#7 .sd ]

/-- Table 6, Atomic Memory Instructions. -/
def rowsAtomic : List Row :=
  [ rowR 0b0000000010#10 0b0101011#7 .amoaddW,
    rowR 0b0000001010#10 0b0101011#7 .amoswapW,
    rowR 0b0000010010#10 0b0101011#7 .amoandW,
    rowR 0b0000011010#10 0b0101011#7 .amoorW,
    rowR 0b0000100010#10 0b0101011#7 .amominW,
    rowR 0b0000101010#10 0b0101011#7 .amomaxW,
    rowR 0b0000110010#10 0b0101011#7 .amominuW,
    rowR 0b0000111010#10 0b0101011#7 .amomaxuW,
    rowR 0b0000000011#10 0b0101011#7 .amoaddD,
    rowR 0b0000001011#10 0b0101011#7 .amoswapD,
    rowR 0b0000010011#10 0b0101011#7 .amoandD,
    rowR 0b0000011011#10 0b0101011#7 .amoorD,
    rowR 0b0000100011#10 0b0101011#7 .amominD,
    rowR 0b0000101011#10 0b0101011#7 .amomaxD,
    rowR 0b0000110011#10 0b0101011#7 .amominuD,
    rowR 0b0000111011#10 0b0101011#7 .amomaxuD ]

/-- Table 6, Integer Compute Instructions. -/
def rowsInteger : List Row :=
  [ rowI 0b000#3 0b0010011#7 .addi,
    rowI 0b010#3 0b0010011#7 .slti,
    rowI 0b011#3 0b0010011#7 .sltiu,
    rowI 0b100#3 0b0010011#7 .xori,
    rowI 0b110#3 0b0010011#7 .ori,
    rowI 0b111#3 0b0010011#7 .andi,
    rowSh 0b000000#6 0b001#3 0b0010011#7 .slli,
    rowSh 0b000000#6 0b101#3 0b0010011#7 .srli,
    rowSh 0b000001#6 0b101#3 0b0010011#7 .srai,
    rowR 0b0000000000#10 0b0110011#7 .add,
    rowR 0b1000000000#10 0b0110011#7 .sub,
    rowR 0b0000000001#10 0b0110011#7 .sll,
    rowR 0b0000000010#10 0b0110011#7 .slt,
    rowR 0b0000000011#10 0b0110011#7 .sltu,
    rowR 0b0000000100#10 0b0110011#7 .xor,
    rowR 0b0000000101#10 0b0110011#7 .srl,
    rowR 0b1000000101#10 0b0110011#7 .sra,
    rowR 0b0000000110#10 0b0110011#7 .or,
    rowR 0b0000000111#10 0b0110011#7 .and,
    rowR 0b0000001000#10 0b0110011#7 .mul,
    rowR 0b0000001001#10 0b0110011#7 .mulh,
    rowR 0b0000001010#10 0b0110011#7 .mulhsu,
    rowR 0b0000001011#10 0b0110011#7 .mulhu,
    rowR 0b0000001100#10 0b0110011#7 .div,
    rowR 0b0000001101#10 0b0110011#7 .divu,
    rowR 0b0000001110#10 0b0110011#7 .rem,
    rowR 0b0000001111#10 0b0110011#7 .remu,
    rowL 0b0110111#7 .lui ]

/-- Table 6, 32-bit Integer Compute Instructions. -/
def rowsInteger32 : List Row :=
  [ rowI 0b000#3 0b0011011#7 .addiw,
    rowShW 0b0000000#7 0b001#3 0b0011011#7 .slliw,
    rowShW 0b0000000#7 0b101#3 0b0011011#7 .srliw,
    rowShW 0b0000010#7 0b101#3 0b0011011#7 .sraiw,
    rowR 0b0000000000#10 0b0111011#7 .addw,
    rowR 0b1000000000#10 0b0111011#7 .subw,
    rowR 0b0000000001#10 0b0111011#7 .sllw,
    rowR 0b0000000101#10 0b0111011#7 .srlw,
    rowR 0b1000000101#10 0b0111011#7 .sraw,
    rowR 0b0000001000#10 0b0111011#7 .mulw,
    rowR 0b0000001100#10 0b0111011#7 .divw,
    rowR 0b0000001101#10 0b0111011#7 .divuw,
    rowR 0b0000001110#10 0b0111011#7 .remw,
    rowR 0b0000001111#10 0b0111011#7 .remuw ]

/-- Table 6, Floating-Point Memory Instructions. -/
def rowsFpMemory : List Row :=
  [ rowI 0b010#3 0b0000111#7 .flw,
    rowI 0b011#3 0b0000111#7 .fld,
    rowB 0b010#3 0b0100111#7 .fsw,
    rowB 0b011#3 0b0100111#7 .fsd ]

/-- Table 6, Floating-Point Compute Instructions. -/
def rowsFpCompute : List Row :=
  [ rowFp2 0b00000#5 0b00#2 0b1010011#7 .faddS,
    rowFp2 0b00001#5 0b00#2 0b1010011#7 .fsubS,
    rowFp2 0b00010#5 0b00#2 0b1010011#7 .fmulS,
    rowFp2 0b00011#5 0b00#2 0b1010011#7 .fdivS,
    rowFp1 0b00100#5 0b00#2 0b1010011#7 .fsqrtS,
    rowR 0b1100000000#10 0b1010011#7 .fminS,
    rowR 0b1100100000#10 0b1010011#7 .fmaxS,
    rowFp2 0b00000#5 0b01#2 0b1010011#7 .faddD,
    rowFp2 0b00001#5 0b01#2 0b1010011#7 .fsubD,
    rowFp2 0b00010#5 0b01#2 0b1010011#7 .fmulD,
    rowFp2 0b00011#5 0b01#2 0b1010011#7 .fdivD,
    rowFp1 0b00100#5 0b01#2 0b1010011#7 .fsqrtD,
    rowR 0b1100000001#10 0b1010011#7 .fminD,
    rowR 0b1100100001#10 0b1010011#7 .fmaxD,
    rowR4 0b00#2 0b1000011#7 .fmaddS,
    rowR4 0b00#2 0b1000111#7 .fmsubS,
    rowR4 0b00#2 0b1001011#7 .fnmsubS,
    rowR4 0b00#2 0b1001111#7 .fnmaddS,
    rowR4 0b01#2 0b1000011#7 .fmaddD,
    rowR4 0b01#2 0b1000111#7 .fmsubD,
    rowR4 0b01#2 0b1001011#7 .fnmsubD,
    rowR4 0b01#2 0b1001111#7 .fnmaddD ]

/-- Table 6, Floating-Point Move & Conversion Instructions. -/
def rowsFpMove : List Row :=
  [ rowR 0b0010100000#10 0b1010011#7 .fsgnjS,
    rowR 0b0011000000#10 0b1010011#7 .fsgnjnS,
    rowR 0b0011100000#10 0b1010011#7 .fsgnjxS,
    rowR 0b0010100001#10 0b1010011#7 .fsgnjD,
    rowR 0b0011000001#10 0b1010011#7 .fsgnjnD,
    rowR 0b0011100001#10 0b1010011#7 .fsgnjxD,
    rowFp1 0b10001#5 0b00#2 0b1010011#7 .fcvtSD,
    rowFp1 0b10000#5 0b01#2 0b1010011#7 .fcvtDS ]

/-- Table 6, Integer to Floating-Point Move & Conversion Instructions. -/
def rowsIntToFp : List Row :=
  [ rowFp1 0b01100#5 0b00#2 0b1010011#7 .fcvtSL,
    rowFp1 0b01101#5 0b00#2 0b1010011#7 .fcvtSLU,
    rowFp1 0b01110#5 0b00#2 0b1010011#7 .fcvtSW,
    rowFp1 0b01111#5 0b00#2 0b1010011#7 .fcvtSWU,
    rowFp1 0b01100#5 0b01#2 0b1010011#7 .fcvtDL,
    rowFp1 0b01101#5 0b01#2 0b1010011#7 .fcvtDLU,
    rowFp1 0b01110#5 0b01#2 0b1010011#7 .fcvtDW,
    rowFp1 0b01111#5 0b01#2 0b1010011#7 .fcvtDWU,
    rowSrc1 0b1111000000#10 0b1010011#7 .mxtfS,
    rowSrc1 0b1111000001#10 0b1010011#7 .mxtfD,
    rowSrc1 0b1111100000#10 0b1010011#7 .mtfsr ]

/-- Table 6, Floating-Point to Integer Move & Conversion Instructions. -/
def rowsFpToInt : List Row :=
  [ rowFp1 0b01000#5 0b00#2 0b1010011#7 .fcvtLS,
    rowFp1 0b01001#5 0b00#2 0b1010011#7 .fcvtLUS,
    rowFp1 0b01010#5 0b00#2 0b1010011#7 .fcvtWS,
    rowFp1 0b01011#5 0b00#2 0b1010011#7 .fcvtWUS,
    rowFp1 0b01000#5 0b01#2 0b1010011#7 .fcvtLD,
    rowFp1 0b01001#5 0b01#2 0b1010011#7 .fcvtLUD,
    rowFp1 0b01010#5 0b01#2 0b1010011#7 .fcvtWD,
    rowFp1 0b01011#5 0b01#2 0b1010011#7 .fcvtWUD,
    rowSrc2 0b1110000000#10 0b1010011#7 .mftxS,
    rowSrc2 0b1110000001#10 0b1010011#7 .mftxD,
    rowDest 0b00000000001110100000#20 0b1010011#7 .mffsr ]

/-- Table 6, Floating-Point Compare Instructions. -/
def rowsFpCompare : List Row :=
  [ rowR 0b1010100000#10 0b1010011#7 .feqS,
    rowR 0b1011000000#10 0b1010011#7 .fltS,
    rowR 0b1011100000#10 0b1010011#7 .fleS,
    rowR 0b1010100001#10 0b1010011#7 .feqD,
    rowR 0b1011000001#10 0b1010011#7 .fltD,
    rowR 0b1011100001#10 0b1010011#7 .fleD ]

/-- Table 6, Miscellaneous Memory Instructions. -/
def rowsMisc : List Row :=
  [ rowI 0b001#3 0b0101111#7 .fenceI,
    rowI 0b010#3 0b0101111#7 .fence ]

/-- Table 6, System Instructions. -/
def rowsSystem : List Row :=
  [ rowNone 0b0000000000000000000000000#25 0b1110111#7 .syscall,
    rowNone 0b0000000000000000000000001#25 0b1110111#7 .brk,
    rowDest 0b00000000000000000100#20 0b1110111#7 .rdcycle,
    rowDest 0b00000000000000001100#20 0b1110111#7 .rdtime,
    rowDest 0b00000000000000010100#20 0b1110111#7 .rdinstret ]

/-- The opcode table (R91 step 2): 150 rows (R110). -/
def rows : List Row :=
  rowsControl ++
  rowsMemory ++
  rowsAtomic ++
  rowsInteger ++
  rowsInteger32 ++
  rowsFpMemory ++
  rowsFpCompute ++
  rowsFpMove ++
  rowsIntToFp ++
  rowsFpToInt ++
  rowsFpCompare ++
  rowsMisc ++
  rowsSystem

/-! ### Decoding (R91) -/

/-- Why a word, or a sequence of bytes, is no instruction. -/
inductive DecodeError where
  /-- The two lowest bits are not 11: the space of the compressed instructions (R81). -/
  | notThirtyTwoBit
  /-- Bits 4:2 are 111: the space of the longer instructions (R81). -/
  | longerThanThirtyTwoBit
  /-- No row of the opcode table matches (R111, R112). -/
  | unassigned
  /-- There are fewer than four bytes. -/
  | tooFewBytes
  deriving DecidableEq, Repr

/-- The instruction a word stands for (R91 steps 1, 2 and 6). -/
def decode (w : IWord) : Except DecodeError Instr :=
  if w.extractLsb' 0 2 != 0b11#2 then .error .notThirtyTwoBit
  else if w.extractLsb' 2 3 == 0b111#3 then .error .longerThanThirtyTwoBit
  else match rows.find? (·.accepts w) with
    | some r => .ok (r.build w)
    | none => .error .unassigned

/-- The instruction held by four bytes at rising addresses: two 16-bit parcels, the low one first, each in the byte order of
the memory system (R54, R55). -/
def assembleParcels (e : Endian) (b0 b1 b2 b3 : Byte) : IWord :=
  match e with
  | .little => (b3 ++ b2) ++ (b1 ++ b0)
  | .big => (b2 ++ b3) ++ (b0 ++ b1)

/-- The four bytes that hold an instruction, at rising addresses (R55). -/
def wordBytes (e : Endian) (w : IWord) : List Byte :=
  match e with
  | .little => [w.extractLsb' 0 8, w.extractLsb' 8 8, w.extractLsb' 16 8, w.extractLsb' 24 8]
  | .big => [w.extractLsb' 8 8, w.extractLsb' 0 8, w.extractLsb' 24 8, w.extractLsb' 16 8]

/-- Decoding of any bytes: the first instruction and the bytes after it. -/
def decodeBytes (e : Endian) : List Byte → Except DecodeError (Instr × List Byte)
  | b0 :: b1 :: b2 :: b3 :: rest =>
    match decode (assembleParcels e b0 b1 b2 b3) with
    | .ok i => .ok (i, rest)
    | .error err => .error err
  | _ => .error .tooFewBytes

/-- The instruction whose bits are `w`, numbered as spec/opcode_table.json numbers them, every bit above `nbits` being 0;
the bytes are laid out as a little-endian memory system stores them. -/
def decodeTableWord (nbits w : Nat) : Option Instr :=
  match decodeBytes .little (wordBytes .little (BitVec.ofNat 32 (w % 2 ^ nbits))) with
  | .ok (i, _) => some i
  | .error _ => none

/-! ### Encoding -/

/-- The word of an instruction, written from R94 to R109. -/
def encode : Instr → IWord
  | .j off25 => encJ off25 0b1100111#7
  | .jal off25 => encJ off25 0b1101111#7
  | .beq rs1 rs2 imm12 => encB rs1 rs2 imm12 0b000#3 0b1100011#7
  | .bne rs1 rs2 imm12 => encB rs1 rs2 imm12 0b001#3 0b1100011#7
  | .blt rs1 rs2 imm12 => encB rs1 rs2 imm12 0b100#3 0b1100011#7
  | .bge rs1 rs2 imm12 => encB rs1 rs2 imm12 0b101#3 0b1100011#7
  | .bltu rs1 rs2 imm12 => encB rs1 rs2 imm12 0b110#3 0b1100011#7
  | .bgeu rs1 rs2 imm12 => encB rs1 rs2 imm12 0b111#3 0b1100011#7
  | .jalrC rd rs1 imm12 => encI rd rs1 imm12 0b000#3 0b1101011#7
  | .jalrR rd rs1 imm12 => encI rd rs1 imm12 0b001#3 0b1101011#7
  | .jalrJ rd rs1 imm12 => encI rd rs1 imm12 0b010#3 0b1101011#7
  | .rdnpc rd => encDest rd 0b00000000000000000100#20 0b1101011#7
  | .lb rd rs1 imm12 => encI rd rs1 imm12 0b000#3 0b0000011#7
  | .lh rd rs1 imm12 => encI rd rs1 imm12 0b001#3 0b0000011#7
  | .lw rd rs1 imm12 => encI rd rs1 imm12 0b010#3 0b0000011#7
  | .ld rd rs1 imm12 => encI rd rs1 imm12 0b011#3 0b0000011#7
  | .lbu rd rs1 imm12 => encI rd rs1 imm12 0b100#3 0b0000011#7
  | .lhu rd rs1 imm12 => encI rd rs1 imm12 0b101#3 0b0000011#7
  | .lwu rd rs1 imm12 => encI rd rs1 imm12 0b110#3 0b0000011#7
  | .sb rs1 rs2 imm12 => encB rs1 rs2 imm12 0b000#3 0b0100011#7
  | .sh rs1 rs2 imm12 => encB rs1 rs2 imm12 0b001#3 0b0100011#7
  | .sw rs1 rs2 imm12 => encB rs1 rs2 imm12 0b010#3 0b0100011#7
  | .sd rs1 rs2 imm12 => encB rs1 rs2 imm12 0b011#3 0b0100011#7
  | .amoaddW rd rs1 rs2 => encR rd rs1 rs2 0b0000000010#10 0b0101011#7
  | .amoswapW rd rs1 rs2 => encR rd rs1 rs2 0b0000001010#10 0b0101011#7
  | .amoandW rd rs1 rs2 => encR rd rs1 rs2 0b0000010010#10 0b0101011#7
  | .amoorW rd rs1 rs2 => encR rd rs1 rs2 0b0000011010#10 0b0101011#7
  | .amominW rd rs1 rs2 => encR rd rs1 rs2 0b0000100010#10 0b0101011#7
  | .amomaxW rd rs1 rs2 => encR rd rs1 rs2 0b0000101010#10 0b0101011#7
  | .amominuW rd rs1 rs2 => encR rd rs1 rs2 0b0000110010#10 0b0101011#7
  | .amomaxuW rd rs1 rs2 => encR rd rs1 rs2 0b0000111010#10 0b0101011#7
  | .amoaddD rd rs1 rs2 => encR rd rs1 rs2 0b0000000011#10 0b0101011#7
  | .amoswapD rd rs1 rs2 => encR rd rs1 rs2 0b0000001011#10 0b0101011#7
  | .amoandD rd rs1 rs2 => encR rd rs1 rs2 0b0000010011#10 0b0101011#7
  | .amoorD rd rs1 rs2 => encR rd rs1 rs2 0b0000011011#10 0b0101011#7
  | .amominD rd rs1 rs2 => encR rd rs1 rs2 0b0000100011#10 0b0101011#7
  | .amomaxD rd rs1 rs2 => encR rd rs1 rs2 0b0000101011#10 0b0101011#7
  | .amominuD rd rs1 rs2 => encR rd rs1 rs2 0b0000110011#10 0b0101011#7
  | .amomaxuD rd rs1 rs2 => encR rd rs1 rs2 0b0000111011#10 0b0101011#7
  | .addi rd rs1 imm12 => encI rd rs1 imm12 0b000#3 0b0010011#7
  | .slti rd rs1 imm12 => encI rd rs1 imm12 0b010#3 0b0010011#7
  | .sltiu rd rs1 imm12 => encI rd rs1 imm12 0b011#3 0b0010011#7
  | .xori rd rs1 imm12 => encI rd rs1 imm12 0b100#3 0b0010011#7
  | .ori rd rs1 imm12 => encI rd rs1 imm12 0b110#3 0b0010011#7
  | .andi rd rs1 imm12 => encI rd rs1 imm12 0b111#3 0b0010011#7
  | .slli rd rs1 shamt => encSh rd rs1 0b000000#6 shamt 0b001#3 0b0010011#7
  | .srli rd rs1 shamt => encSh rd rs1 0b000000#6 shamt 0b101#3 0b0010011#7
  | .srai rd rs1 shamt => encSh rd rs1 0b000001#6 shamt 0b101#3 0b0010011#7
  | .add rd rs1 rs2 => encR rd rs1 rs2 0b0000000000#10 0b0110011#7
  | .sub rd rs1 rs2 => encR rd rs1 rs2 0b1000000000#10 0b0110011#7
  | .sll rd rs1 rs2 => encR rd rs1 rs2 0b0000000001#10 0b0110011#7
  | .slt rd rs1 rs2 => encR rd rs1 rs2 0b0000000010#10 0b0110011#7
  | .sltu rd rs1 rs2 => encR rd rs1 rs2 0b0000000011#10 0b0110011#7
  | .xor rd rs1 rs2 => encR rd rs1 rs2 0b0000000100#10 0b0110011#7
  | .srl rd rs1 rs2 => encR rd rs1 rs2 0b0000000101#10 0b0110011#7
  | .sra rd rs1 rs2 => encR rd rs1 rs2 0b1000000101#10 0b0110011#7
  | .or rd rs1 rs2 => encR rd rs1 rs2 0b0000000110#10 0b0110011#7
  | .and rd rs1 rs2 => encR rd rs1 rs2 0b0000000111#10 0b0110011#7
  | .mul rd rs1 rs2 => encR rd rs1 rs2 0b0000001000#10 0b0110011#7
  | .mulh rd rs1 rs2 => encR rd rs1 rs2 0b0000001001#10 0b0110011#7
  | .mulhsu rd rs1 rs2 => encR rd rs1 rs2 0b0000001010#10 0b0110011#7
  | .mulhu rd rs1 rs2 => encR rd rs1 rs2 0b0000001011#10 0b0110011#7
  | .div rd rs1 rs2 => encR rd rs1 rs2 0b0000001100#10 0b0110011#7
  | .divu rd rs1 rs2 => encR rd rs1 rs2 0b0000001101#10 0b0110011#7
  | .rem rd rs1 rs2 => encR rd rs1 rs2 0b0000001110#10 0b0110011#7
  | .remu rd rs1 rs2 => encR rd rs1 rs2 0b0000001111#10 0b0110011#7
  | .lui rd imm20 => encL rd imm20 0b0110111#7
  | .addiw rd rs1 imm12 => encI rd rs1 imm12 0b000#3 0b0011011#7
  | .slliw rd rs1 shamt => encShW rd rs1 0b0000000#7 shamt 0b001#3 0b0011011#7
  | .srliw rd rs1 shamt => encShW rd rs1 0b0000000#7 shamt 0b101#3 0b0011011#7
  | .sraiw rd rs1 shamt => encShW rd rs1 0b0000010#7 shamt 0b101#3 0b0011011#7
  | .addw rd rs1 rs2 => encR rd rs1 rs2 0b0000000000#10 0b0111011#7
  | .subw rd rs1 rs2 => encR rd rs1 rs2 0b1000000000#10 0b0111011#7
  | .sllw rd rs1 rs2 => encR rd rs1 rs2 0b0000000001#10 0b0111011#7
  | .srlw rd rs1 rs2 => encR rd rs1 rs2 0b0000000101#10 0b0111011#7
  | .sraw rd rs1 rs2 => encR rd rs1 rs2 0b1000000101#10 0b0111011#7
  | .mulw rd rs1 rs2 => encR rd rs1 rs2 0b0000001000#10 0b0111011#7
  | .divw rd rs1 rs2 => encR rd rs1 rs2 0b0000001100#10 0b0111011#7
  | .divuw rd rs1 rs2 => encR rd rs1 rs2 0b0000001101#10 0b0111011#7
  | .remw rd rs1 rs2 => encR rd rs1 rs2 0b0000001110#10 0b0111011#7
  | .remuw rd rs1 rs2 => encR rd rs1 rs2 0b0000001111#10 0b0111011#7
  | .flw rd rs1 imm12 => encI rd rs1 imm12 0b010#3 0b0000111#7
  | .fld rd rs1 imm12 => encI rd rs1 imm12 0b011#3 0b0000111#7
  | .fsw rs1 rs2 imm12 => encB rs1 rs2 imm12 0b010#3 0b0100111#7
  | .fsd rs1 rs2 imm12 => encB rs1 rs2 imm12 0b011#3 0b0100111#7
  | .faddS rd rs1 rs2 rm => encFp2 rd rs1 rs2 0b00000#5 rm 0b00#2 0b1010011#7
  | .fsubS rd rs1 rs2 rm => encFp2 rd rs1 rs2 0b00001#5 rm 0b00#2 0b1010011#7
  | .fmulS rd rs1 rs2 rm => encFp2 rd rs1 rs2 0b00010#5 rm 0b00#2 0b1010011#7
  | .fdivS rd rs1 rs2 rm => encFp2 rd rs1 rs2 0b00011#5 rm 0b00#2 0b1010011#7
  | .fsqrtS rd rs1 rm => encFp1 rd rs1 0b00100#5 rm 0b00#2 0b1010011#7
  | .fminS rd rs1 rs2 => encR rd rs1 rs2 0b1100000000#10 0b1010011#7
  | .fmaxS rd rs1 rs2 => encR rd rs1 rs2 0b1100100000#10 0b1010011#7
  | .faddD rd rs1 rs2 rm => encFp2 rd rs1 rs2 0b00000#5 rm 0b01#2 0b1010011#7
  | .fsubD rd rs1 rs2 rm => encFp2 rd rs1 rs2 0b00001#5 rm 0b01#2 0b1010011#7
  | .fmulD rd rs1 rs2 rm => encFp2 rd rs1 rs2 0b00010#5 rm 0b01#2 0b1010011#7
  | .fdivD rd rs1 rs2 rm => encFp2 rd rs1 rs2 0b00011#5 rm 0b01#2 0b1010011#7
  | .fsqrtD rd rs1 rm => encFp1 rd rs1 0b00100#5 rm 0b01#2 0b1010011#7
  | .fminD rd rs1 rs2 => encR rd rs1 rs2 0b1100000001#10 0b1010011#7
  | .fmaxD rd rs1 rs2 => encR rd rs1 rs2 0b1100100001#10 0b1010011#7
  | .fmaddS rd rs1 rs2 rs3 rm => encR4 rd rs1 rs2 rs3 rm 0b00#2 0b1000011#7
  | .fmsubS rd rs1 rs2 rs3 rm => encR4 rd rs1 rs2 rs3 rm 0b00#2 0b1000111#7
  | .fnmsubS rd rs1 rs2 rs3 rm => encR4 rd rs1 rs2 rs3 rm 0b00#2 0b1001011#7
  | .fnmaddS rd rs1 rs2 rs3 rm => encR4 rd rs1 rs2 rs3 rm 0b00#2 0b1001111#7
  | .fmaddD rd rs1 rs2 rs3 rm => encR4 rd rs1 rs2 rs3 rm 0b01#2 0b1000011#7
  | .fmsubD rd rs1 rs2 rs3 rm => encR4 rd rs1 rs2 rs3 rm 0b01#2 0b1000111#7
  | .fnmsubD rd rs1 rs2 rs3 rm => encR4 rd rs1 rs2 rs3 rm 0b01#2 0b1001011#7
  | .fnmaddD rd rs1 rs2 rs3 rm => encR4 rd rs1 rs2 rs3 rm 0b01#2 0b1001111#7
  | .fsgnjS rd rs1 rs2 => encR rd rs1 rs2 0b0010100000#10 0b1010011#7
  | .fsgnjnS rd rs1 rs2 => encR rd rs1 rs2 0b0011000000#10 0b1010011#7
  | .fsgnjxS rd rs1 rs2 => encR rd rs1 rs2 0b0011100000#10 0b1010011#7
  | .fsgnjD rd rs1 rs2 => encR rd rs1 rs2 0b0010100001#10 0b1010011#7
  | .fsgnjnD rd rs1 rs2 => encR rd rs1 rs2 0b0011000001#10 0b1010011#7
  | .fsgnjxD rd rs1 rs2 => encR rd rs1 rs2 0b0011100001#10 0b1010011#7
  | .fcvtSD rd rs1 rm => encFp1 rd rs1 0b10001#5 rm 0b00#2 0b1010011#7
  | .fcvtDS rd rs1 rm => encFp1 rd rs1 0b10000#5 rm 0b01#2 0b1010011#7
  | .fcvtSL rd rs1 rm => encFp1 rd rs1 0b01100#5 rm 0b00#2 0b1010011#7
  | .fcvtSLU rd rs1 rm => encFp1 rd rs1 0b01101#5 rm 0b00#2 0b1010011#7
  | .fcvtSW rd rs1 rm => encFp1 rd rs1 0b01110#5 rm 0b00#2 0b1010011#7
  | .fcvtSWU rd rs1 rm => encFp1 rd rs1 0b01111#5 rm 0b00#2 0b1010011#7
  | .fcvtDL rd rs1 rm => encFp1 rd rs1 0b01100#5 rm 0b01#2 0b1010011#7
  | .fcvtDLU rd rs1 rm => encFp1 rd rs1 0b01101#5 rm 0b01#2 0b1010011#7
  | .fcvtDW rd rs1 rm => encFp1 rd rs1 0b01110#5 rm 0b01#2 0b1010011#7
  | .fcvtDWU rd rs1 rm => encFp1 rd rs1 0b01111#5 rm 0b01#2 0b1010011#7
  | .mxtfS rd rs1 => encSrc1 rd rs1 0b1111000000#10 0b1010011#7
  | .mxtfD rd rs1 => encSrc1 rd rs1 0b1111000001#10 0b1010011#7
  | .mtfsr rd rs1 => encSrc1 rd rs1 0b1111100000#10 0b1010011#7
  | .fcvtLS rd rs1 rm => encFp1 rd rs1 0b01000#5 rm 0b00#2 0b1010011#7
  | .fcvtLUS rd rs1 rm => encFp1 rd rs1 0b01001#5 rm 0b00#2 0b1010011#7
  | .fcvtWS rd rs1 rm => encFp1 rd rs1 0b01010#5 rm 0b00#2 0b1010011#7
  | .fcvtWUS rd rs1 rm => encFp1 rd rs1 0b01011#5 rm 0b00#2 0b1010011#7
  | .fcvtLD rd rs1 rm => encFp1 rd rs1 0b01000#5 rm 0b01#2 0b1010011#7
  | .fcvtLUD rd rs1 rm => encFp1 rd rs1 0b01001#5 rm 0b01#2 0b1010011#7
  | .fcvtWD rd rs1 rm => encFp1 rd rs1 0b01010#5 rm 0b01#2 0b1010011#7
  | .fcvtWUD rd rs1 rm => encFp1 rd rs1 0b01011#5 rm 0b01#2 0b1010011#7
  | .mftxS rd rs2 => encSrc2 rd rs2 0b1110000000#10 0b1010011#7
  | .mftxD rd rs2 => encSrc2 rd rs2 0b1110000001#10 0b1010011#7
  | .mffsr rd => encDest rd 0b00000000001110100000#20 0b1010011#7
  | .feqS rd rs1 rs2 => encR rd rs1 rs2 0b1010100000#10 0b1010011#7
  | .fltS rd rs1 rs2 => encR rd rs1 rs2 0b1011000000#10 0b1010011#7
  | .fleS rd rs1 rs2 => encR rd rs1 rs2 0b1011100000#10 0b1010011#7
  | .feqD rd rs1 rs2 => encR rd rs1 rs2 0b1010100001#10 0b1010011#7
  | .fltD rd rs1 rs2 => encR rd rs1 rs2 0b1011000001#10 0b1010011#7
  | .fleD rd rs1 rs2 => encR rd rs1 rs2 0b1011100001#10 0b1010011#7
  | .fenceI rd rs1 imm12 => encI rd rs1 imm12 0b001#3 0b0101111#7
  | .fence rd rs1 imm12 => encI rd rs1 imm12 0b010#3 0b0101111#7
  | .syscall => encNone 0b0000000000000000000000000#25 0b1110111#7
  | .brk => encNone 0b0000000000000000000000001#25 0b1110111#7
  | .rdcycle rd => encDest rd 0b00000000000000000100#20 0b1110111#7
  | .rdtime rd => encDest rd 0b00000000000000001100#20 0b1110111#7
  | .rdinstret rd => encDest rd 0b00000000000000010100#20 0b1110111#7

/-- The bytes of an instruction at rising addresses. -/
def encodeBytes (e : Endian) (i : Instr) : List Byte := wordBytes e (encode i)

end Sys2Proof
end

