-- ==== Sys2Proof/Machine/State.lean ====
section
/-! DEFINITION. The state of one hardware thread and of the memory it reaches, as plain data (spec/10_state.md), with the
exceptions it can raise (spec/60_exceptions.md) and the state after reset (spec/70_reset_and_hazards.md). -/

namespace Sys2Proof.Machine

/-- A floating-point register: 64 bits that hold a single or a double; which of the two was last written is part of the
value, for nothing relates the two views (R31, R32). -/
inductive FReg where
  | s (v : BitVec 32)
  | d (v : BitVec 64)
  deriving DecidableEq, Repr

/-- The synchronous exceptions, each with the information the spec records beside the pc (R470). -/
inductive Exc where
  | instructionAddressMisaligned
  | illegalInstruction (inst : IWord)
  | misalignedAddress (addr : XWord)
  | syscall
  | breakpoint
  | accessFault (addr : Nat) (kind : AccessKind)
  deriving DecidableEq, Repr

/-- The record `(E, pc, info)` that a trap hands to the execution environment (R480). -/
structure TrapRecord where
  exc : Exc
  pc  : XWord
  deriving DecidableEq, Repr

/-- What a resuming environment changes: the state it returns is the state of the trap with these writes made (R480, R482). -/
structure Resumption where
  /-- where the thread goes on -/
  pc       : XWord
  /-- fixed-point registers it writes -/
  x        : List (Reg × XWord)
  /-- floating-point registers it writes -/
  f        : List (Reg × FReg)
  /-- the value it writes to `fsr`, if it does -/
  fsr      : Option (BitVec 32)
  /-- bytes of memory it writes -/
  mem      : List Host.Cell
  /-- how many instructions it counts as retired -/
  retired  : Nat
  /-- whether it makes instruction fetches see every store made so far -/
  syncsFetch : Bool
  deriving DecidableEq, Repr

/-- The outcome of `TrapHandler` at a trap (R480). -/
inductive TrapOutcome where
  | stop
  | resume (r : Resumption)
  deriving DecidableEq, Repr, Inhabited

/-- What `TrapHandler` does with the traps it has no case for: Stop, its default, or whatever `Config.trapOutcome` says. -/
inductive OtherTraps where
  | stop
  | free
  deriving DecidableEq, Repr

/-- `TrapHandler`, a function of cause, pc, information and state (R9, R480), as plain data: the outcome of a record that is
listed, and what is done with every other one.  With nothing listed and `free` it is an unknown function of all four. -/
structure TrapHandler where
  cases     : List (TrapRecord × TrapOutcome)
  otherwise : OtherTraps
  deriving DecidableEq, Repr

/-- Memory as a list of its bytes: addresses rise strictly, and no entry holds what an unlisted address reads as, which is 0
(R42, R51; log entry 8). -/
abbrev Memory := List Host.Cell

/-- All the state of the machine. -/
structure State where
  /-- the parameters of the run, which no step changes (R9) -/
  cfg    : Config
  /-- the parameter `TrapHandler`, which no step changes (R9, R480) -/
  handler : TrapHandler
  /-- fixed-point registers; entry 0 is never read or written (R21) -/
  x      : Vector XWord 32
  /-- floating-point registers (R30) -/
  f      : Vector FReg 32
  /-- address of the current instruction (R25) -/
  pc     : XWord
  /-- floating-point status register (R34) -/
  fsr    : BitVec 32
  /-- cycle counter (R39) -/
  cycle  : Nat
  /-- real-time counter (R40) -/
  time   : Nat
  /-- retired-instruction counter (R41) -/
  instret : Nat
  /-- the memory (R42) -/
  mem    : Memory
  /-- the instruction-fetch view: for each address stored to since the last FENCE.I, the byte it held then (R44) -/
  stale  : List Host.Cell
  /-- the thread was stopped by the environment (R480, R529) -/
  halted : Bool
  /-- the records of the traps taken, as handed to the environment, the latest first (R480) -/
  traps  : List TrapRecord
  /-- the model's own: the number of the current step, which the free values are applied to -/
  draws  : Nat
  deriving DecidableEq, Repr

/-- Why no next state exists.

* `halted`: raised by `step` alone, on a state in which the environment has stopped the thread: the run is over (R529).
  Safe: the spec gives a stopped thread no further step. -/
inductive Fault where
  | halted
  deriving DecidableEq, Repr

/-- Why the model gives no meaning.

* `notModelled`: raised by an arm of `exec` whose instruction has no meaning yet; no arm does.  Safe: the run stops. -/
inductive Refusal where
  | notModelled (mnemonic : String)
  deriving DecidableEq, Repr

/-- A state at the start of a run (R520 to R527): the parameters, the registers the environment chose, and the memory it
loaded. -/
def State.start (cfg : Config) (handler : TrapHandler) (x : Vector XWord 32) (f : Vector FReg 32) (resetPc : XWord)
    (fsrReset : BitVec 32) (cycle time instretStart : Nat) (m0 : Memory) : State where
  cfg    := cfg
  handler := handler
  x      := x
  f      := f
  pc     := resetPc
  fsr    := fsrReset
  cycle  := cycle
  time   := time
  instret := instretStart
  mem    := m0
  stale  := []
  halted := false
  traps  := []
  draws  := 0

/-- The default `TrapHandler`: always Stop (R9, R480). -/
def TrapHandler.default : TrapHandler := { cases := [], otherwise := .stop }

/-- The machine right after reset: `fsr` is `FSR_RESET`'s default (R523), the fetch view agrees with memory (R526), every
trap stops the thread (R480); what the spec leaves unspecified has the value of log entries 1 to 8. -/
def State.reset : State :=
  State.start Config.default TrapHandler.default (Vector.replicate 32 0) (Vector.replicate 32 (.d 0)) 0 0 0 0 0 []

end Sys2Proof.Machine

namespace Sys2Proof

/-- `TrapHandler` where nothing is said of it: a total function of the record of the trap and the state, with no body, so that
nothing can be proved of its outcomes (R9, R480, U19). -/
opaque Config.trapOutcome (r : Machine.TrapRecord) (s : Machine.State) : Machine.TrapOutcome

end Sys2Proof
end

