-- ==== Sys2Proof/Machine/Operands.lean ====
section
/-! DEFINITION. Values of `XPRLEN` bits and the operand forms of the instructions: narrowing, extension, reading as a number
(spec/00_scope.md R10 to R12), the immediates (spec/30_encoding.md R85 to R89), effective addresses and targets, and the
reads of the two register files. -/

namespace Sys2Proof.Machine

/-! ### Values of `XPRLEN` bits -/

/-- The low `XPRLEN` bits. -/
def trunc (xl : Xlen) (v : XWord) : XWord :=
  match xl with
  | .rv32 => (v.setWidth 32).setWidth 64
  | .rv64 => v

/-- `unsigned(v)` (R11). -/
def unsigned (xl : Xlen) (v : XWord) : Nat := (trunc xl v).toNat

/-- `signed(v)` (R11). -/
def signed (xl : Xlen) (v : XWord) : Int :=
  match xl with
  | .rv32 => (v.setWidth 32).toInt
  | .rv64 => v.toInt

/-- The integer `n` modulo `2^XPRLEN`. -/
def ofInt (xl : Xlen) (n : Int) : XWord := trunc xl (BitVec.ofInt 64 n)

/-- `sext(v)` (R12). -/
def sext {w : Nat} (xl : Xlen) (v : BitVec w) : XWord := trunc xl (v.signExtend 64)

/-- `zext(v)` (R12). -/
def zext {w : Nat} (xl : Xlen) (v : BitVec w) : XWord := trunc xl (v.setWidth 64)

/-- A boolean written to a register, 1 or 0 (R183, R383). -/
def ofBool (b : Bool) : XWord := if b then 1 else 0

/-! ### Register reads -/

/-- `x[r]`, XPRLEN bits; `x[0]` is 0 (R21). -/
def State.readX (s : State) (r : Reg) : XWord := if r = 0 then 0 else trunc s.cfg.xlen s.x[r.toNat]

/-- `x[r][31:0]`, the source of the W instructions (R181). -/
def State.readW (s : State) (r : Reg) : BitVec 32 := (s.readX r).setWidth 32

/-- The pc as an XPRLEN-bit value (R25). -/
def State.readPc (s : State) : XWord := trunc s.cfg.xlen s.pc

/-- What an f register holds. -/
def State.readF (s : State) (r : Reg) : FReg := s.f[r.toNat]

/-- `f[r].S` as operand number `slot` of the instruction; a free value when the register was last written as double (R32). -/
def State.readS (s : State) (slot : Nat) (r : Reg) : BitVec 32 :=
  match s.readF r with
  | .s v => v
  | .d v => Config.singleOfDouble s.draws slot v

/-- `f[r].D` as operand number `slot` of the instruction; a free value when the register was last written as single (R32). -/
def State.readD (s : State) (slot : Nat) (r : Reg) : BitVec 64 :=
  match s.readF r with
  | .d v => v
  | .s v => Config.doubleOfSingle s.draws slot v

/-! ### Immediates and addresses; all address arithmetic is modulo `2^XPRLEN` (R28) -/

/-- The I-type operand, `sext(imm12)` (R85). -/
def immI (xl : Xlen) (imm12 : BitVec 12) : XWord := sext xl imm12

/-- The low 32 bits of the I-type operand, for ADDIW (R188). -/
def immI32 (imm12 : BitVec 12) : BitVec 32 := imm12.signExtend 32

/-- `{imm20, 12'b0}`, the 32-bit value LUI extends (R87). -/
def immU (imm20 : BitVec 20) : BitVec 32 := imm20 ++ 0#12

/-- The byte offset of a branch, `sext(imm12) << 1` (R86). -/
def branchOffset (xl : Xlen) (imm12 : BitVec 12) : XWord := sext xl (imm12 ++ 0#1)

/-- The byte offset of J and JAL, `sext(off25) << 1` (R88). -/
def jumpOffset (xl : Xlen) (off25 : BitVec 25) : XWord := sext xl (off25 ++ 0#1)

/-- `pc + 4` (R26). -/
def State.pcPlus4 (s : State) : XWord := trunc s.cfg.xlen (s.pc + 4)

/-- The target of a taken branch (R268). -/
def State.branchTarget (s : State) (imm12 : BitVec 12) : XWord := trunc s.cfg.xlen (s.pc + branchOffset s.cfg.xlen imm12)

/-- The target of J and JAL (R261). -/
def State.jumpTarget (s : State) (off25 : BitVec 25) : XWord := trunc s.cfg.xlen (s.pc + jumpOffset s.cfg.xlen off25)

/-- The effective address of a load or store (R66), and the target of JALR, which is formed alike and not masked (R263). -/
def State.address (s : State) (rs1 : Reg) (imm12 : BitVec 12) : XWord :=
  trunc s.cfg.xlen (s.readX rs1 + immI s.cfg.xlen imm12)

/-! ### Shift amounts -/

/-- The amount of SLL, SRL and SRA: the low 6 bits of `x[rs2]` on RV64, the low 5 on RV32 (R205). -/
def shiftAmount (xl : Xlen) (v : XWord) : Nat := v.toNat % xl.bits

/-- The amount of the W shifts, `x[rs2][4:0]` (R210). -/
def shiftAmountW (v : XWord) : Nat := v.toNat % 32

end Sys2Proof.Machine
end

