-- ==== Sys2Proof/Machine/Flags.lean ====
section
/-! DEFINITION. The floating-point status register: its fields, the accrued exception flags, the rounding modes and their
selection (spec/10_state.md R34 to R38, spec/45_fp_arithmetic.md R292 to R294). -/

namespace Sys2Proof.Machine

/-- The rounding directions (R35). -/
inductive RMode where
  /-- to nearest, ties to even -/
  | rne
  /-- toward zero -/
  | rtz
  /-- toward minus infinity -/
  | rdn
  /-- toward plus infinity -/
  | rup
  /-- to nearest, ties to the larger magnitude -/
  | rmm
  deriving DecidableEq, Repr

/-- The five exception conditions of an operation (R36). -/
structure FFlags where
  nv : Bool
  dz : Bool
  of : Bool
  uf : Bool
  nx : Bool
  deriving DecidableEq, Repr

def FFlags.none : FFlags := { nv := false, dz := false, of := false, uf := false, nx := false }

/-- The flags in the order of `fsr[4:0]` (R37). -/
def FFlags.bits (fl : FFlags) : BitVec 5 :=
  BitVec.ofBool fl.nv ++ BitVec.ofBool fl.dz ++ BitVec.ofBool fl.of ++ BitVec.ofBool fl.uf ++ BitVec.ofBool fl.nx

/-- The bits of `fsr` that exist: RM in 7:5 and the flags in 4:0; the others read as zero and ignore writes (R37, R38). -/
def fsrMask : BitVec 32 := 0x000000FF#32

/-- `fsr` as it reads. -/
def State.readFsr (s : State) : BitVec 32 := s.fsr &&& fsrMask

/-- `fsr.RM` (R35). -/
def State.fsrRM (s : State) : BitVec 3 := s.fsr.extractLsb' 5 3

/-- `fsr.FLAGS` (R36). -/
def State.fsrFlags (s : State) : BitVec 5 := s.fsr.extractLsb' 0 5

/-- A write of `fsr`, which ignores bits 31:8 (R38). -/
def State.writeFsr (s : State) (v : BitVec 32) : State := { s with fsr := v &&& fsrMask }

/-- `fsr.FLAGS <- fsr.FLAGS | fl` (R294). -/
def State.accrue (s : State) (fl : FFlags) : State := s.writeFsr (s.fsr ||| fl.bits.setWidth 32)

/-- The rounding mode a 3-bit code stands for; 101, 110 and 111 stand for none (R35). -/
def RMode.ofCode (code : BitVec 3) : Option RMode :=
  match code.toNat with
  | 0 => some .rne
  | 1 => some .rtz
  | 2 => some .rdn
  | 3 => some .rup
  | 4 => some .rmm
  | _ => none

/-- `EffRM(inst)` (R292): `none` where it raises IllegalInstruction. -/
def State.effRM (s : State) (rm : BitVec 3) : Option RMode :=
  if rm = 0b111#3 then RMode.ofCode s.fsrRM else RMode.ofCode rm

end Sys2Proof.Machine
end

