-- ==== Sys2Proof/Machine/Ops.lean ====
section
/-! DEFINITION. The operations the meanings share: memory and its byte order, permissions, the instruction-fetch view, writes
of the register files, retiring an instruction, taking an exception and returning from one, and fetching an instruction. -/

namespace Sys2Proof.Machine

/-- The outcome of an instruction. -/
abbrev Result := Host.Outcome State Fault Refusal

/-! ### Memory as bytes (R51); a byte nothing has written reads 0 (log entry 8) -/

/-- The byte at an address. -/
def Memory.read : Memory → Nat → Byte
  | [], _ => 0
  | (k, v) :: m, a => if k = a then v else Memory.read m a

/-- Set the entry of an address, keeping addresses rising. -/
def Memory.insert : Memory → Nat → Byte → Memory
  | [], a, b => [(a, b)]
  | (k, v) :: m, a, b =>
    if a < k then (a, b) :: (k, v) :: m
    else if a = k then (a, b) :: m
    else (k, v) :: Memory.insert m a b

/-- Drop the entry of an address. -/
def Memory.erase (m : Memory) (a : Nat) : Memory := m.filter fun c => c.1 != a

/-- Write a byte; writing what an unlisted address reads as removes the entry. -/
def Memory.write (m : Memory) (a : Nat) (b : Byte) : Memory := if b = 0 then Memory.erase m a else Memory.insert m a b

/-- Addresses rise strictly. -/
def Memory.rising (m : Memory) : Bool := decide (m.Pairwise fun c c' => c.1 < c'.1)

/-- The canonical form: addresses rise strictly, and no entry holds 0. -/
def Memory.wf (m : Memory) : Bool := Memory.rising m && m.all fun c => c.2 != 0

/-! ### Bytes of a value (R52, R53) -/

/-- The number whose bytes are given, least significant first. -/
def natOfBytes : List Byte → Nat
  | [] => 0
  | b :: bs => b.toNat + 256 * natOfBytes bs

/-- The `n` low bytes of a value, least significant first. -/
def bytesOf (v : BitVec 64) (n : Nat) : List Byte := (List.range n).map fun k => v.extractLsb' (8 * k) 8

/-- Between least-significant-first and the order of rising addresses; the same in both directions (R52). -/
def byteOrder (e : Endian) (bs : List Byte) : List Byte :=
  match e with
  | .little => bs
  | .big => bs.reverse

/-- The addresses of an access of `n` bytes, wrapping at the top of the address space (R51). -/
def State.span (s : State) (a : XWord) (n : Nat) : List Nat :=
  (List.range n).map fun k => (unsigned s.cfg.xlen a + k) % 2 ^ s.cfg.xlen.bits

/-- `MemRead(a, n)` (R52), zero-extended to 64 bits. -/
def State.memRead (s : State) (a : XWord) (n : Nat) : BitVec 64 :=
  BitVec.ofNat 64 (natOfBytes (byteOrder s.cfg.endian ((s.span a n).map (Memory.read s.mem))))

/-- A byte of the fetch view is remembered the first time it is overwritten since the last FENCE.I (R44). -/
def State.remember (s : State) (a : Nat) : List Host.Cell :=
  if s.stale.any (fun c => c.1 == a) then s.stale else Memory.insert s.stale a (Memory.read s.mem a)

/-- Store one byte. -/
def State.storeByte (s : State) (a : Nat) (b : Byte) : State :=
  { s with stale := s.remember a, mem := Memory.write s.mem a b }

/-- Store bytes at addresses. -/
def State.storeBytes (s : State) (cells : List Host.Cell) : State :=
  cells.foldl (fun s c => s.storeByte c.1 c.2) s

/-- The bytes `MemWrite(a, n, v)` stores, each with its address (R53). -/
def State.cells (s : State) (a : XWord) (n : Nat) (v : BitVec 64) : List Host.Cell :=
  (s.span a n).zip (byteOrder s.cfg.endian (bytesOf v n))

/-- `MemWrite(a, n, v)` (R53). -/
def State.memWrite (s : State) (a : XWord) (n : Nat) (v : BitVec 64) : State := s.storeBytes (s.cells a n v)

/-! ### Permissions (R62) -/

def Perm.allows (p : Perm) : AccessKind → Bool
  | .fetch => p.exec
  | .load => p.read
  | .store => p.write

def MemRegion.holds (r : MemRegion) (a : Nat) : Bool := decide (r.base ≤ a) && decide (a < r.base + r.size)

/-- What an address permits: the first region that holds it decides. -/
def MemMap.perm (m : MemMap) (a : Nat) : Perm :=
  match m.regions.find? (fun r => MemRegion.holds r a) with
  | some r => r.perm
  | none => m.elsewhere

/-- The lowest address of the span that denies one of the kinds of access (R476). -/
def State.denied (s : State) (kinds : List AccessKind) (a : XWord) (n : Nat) : Option Nat :=
  ((s.span a n).filter fun b => !kinds.all (Perm.allows (MemMap.perm s.cfg.memMap b))).min?

/-! ### Register writes -/

/-- `x[rd] <- v`; a write of `x[0]` is discarded (R21). -/
def State.writeX (s : State) (rd : Reg) (v : XWord) : State :=
  if rd = 0 then s else { s with x := s.x.set rd.toNat (trunc s.cfg.xlen v) }

/-- `f[rd] <- v` (R31). -/
def State.writeF (s : State) (rd : Reg) (v : FReg) : State := { s with f := s.f.set rd.toNat v }

/-! ### Completing an instruction -/

/-- The instruction completes and the next one is at `target`; it counts as retired (R435). -/
def State.retireTo (s : State) (target : XWord) : State := { s with pc := target, instret := s.instret + 1 }

/-- The instruction completes and the next one follows it (R26). -/
def State.retire (s : State) : State := s.retireTo s.pcPlus4

/-! ### Taking an exception, and returning from one -/

/-- The environment resumes the thread: its writes are made, and the thread goes on at its pc (R480, R482). -/
def State.resume (s : State) (r : Resumption) : State :=
  let s := r.x.foldl (fun s p => s.writeX p.1 p.2) s
  let s := r.f.foldl (fun s p => s.writeF p.1 p.2) s
  let s := match r.fsr with
    | some v => s.writeFsr v
    | none => s
  let s := s.storeBytes (r.mem.map fun c => (c.1 % 2 ^ s.cfg.xlen.bits, c.2))
  { s with
    pc := trunc s.cfg.xlen r.pc
    instret := s.instret + r.retired
    stale := if r.syncsFetch then [] else s.stale }

/-- `TrapHandler(E, pc, info, state)` (R480).  The state it sees has no memory of earlier traps (R483), nor the model's own
counter. -/
def State.outcome (s : State) (rec' : TrapRecord) : TrapOutcome :=
  match s.handler.cases.find? fun c => c.1 == rec' with
  | some c => c.2
  | none =>
    match s.handler.otherwise with
    | .stop => .stop
    | .free => Config.trapOutcome rec' { s with traps := [], draws := 0 }

/-- Taking an exception (R480): nothing architectural changes, the record `(E, pc, info)` goes to the environment, and the
thread stops or is resumed as `TrapHandler` says. -/
def raise (e : Exc) (s : State) : Result :=
  let rec' : TrapRecord := { exc := e, pc := s.readPc }
  let handed : State := { s with traps := rec' :: s.traps }
  match s.outcome rec' with
  | .stop => .next { handed with halted := true }
  | .resume r => .next (State.resume handed r)

/-- The illegal instruction trap of an instruction that decodes (R472): its word is recorded. -/
def illegal (i : Instr) (s : State) : Result := raise (.illegalInstruction (encode i)) s

/-- An RV64-only instruction is illegal on RV32 (R91 step 3). -/
def rv64Only (i : Instr) (s : State) (k : Result) : Result :=
  match s.cfg.xlen with
  | .rv32 => illegal i s
  | .rv64 => k

/-- The rounding-mode check of an instruction with a variable `rm` field, before anything is read (R293). -/
def withRM (i : Instr) (rm : BitVec 3) (s : State) (k : RMode → Result) : Result :=
  match s.effRM rm with
  | none => illegal i s
  | some m => k m

/-! ### What the families share -/

/-- An instruction whose one effect is the value of an x register (R180). -/
def putX (rd : Reg) (v : XWord) (s : State) : Result := .next (s.writeX rd v).retire

/-- An instruction that writes an x register and raises flags (R351, R383). -/
def putXFlags (rd : Reg) (v : XWord) (fl : FFlags) (s : State) : Result := .next ((s.writeX rd v).accrue fl).retire

/-- An instruction whose one effect is the value of an f register (R143, R371). -/
def putF (rd : Reg) (v : FReg) (s : State) : Result := .next (s.writeF rd v).retire

/-- An instruction that writes an f register and raises flags (R294). -/
def putFFlags (rd : Reg) (v : FReg) (fl : FFlags) (s : State) : Result := .next ((s.writeF rd v).accrue fl).retire

/-- A checked read of memory (R62, R122): the access faults as a whole, or `k` goes on with the value. -/
def loadThen (a : XWord) (n : Nat) (s : State) (k : BitVec 64 → Result) : Result :=
  match s.denied [.load] a n with
  | some addr => raise (.accessFault addr .load) s
  | none => k (s.memRead a n)

/-- A checked write of memory, the whole effect of a store (R62, R122). -/
def storeDone (a : XWord) (n : Nat) (v : BitVec 64) (s : State) : Result :=
  match s.denied [.store] a n with
  | some addr => raise (.accessFault addr .store) s
  | none => .next (s.memWrite a n v).retire

/-- The template of the AMOs (R151): alignment, then permission to read and write, then the read, the write of `op` of the
old value, and the old value, extended by `ext`, to `rd`. -/
def amo (rd rs1 : Reg) (n : Nat) (op : BitVec 64 → BitVec 64) (ext : BitVec 64 → XWord) (s : State) : Result :=
  let a := s.readX rs1
  if a.toNat % n ≠ 0 then raise (.misalignedAddress a) s
  else match s.denied [.load, .store] a n with
    | some addr => raise (.accessFault addr .store) s
    | none => .next ((s.memWrite a n (op (s.memRead a n))).writeX rd (ext (s.memRead a n))).retire

/-! ### Fetching an instruction (R55, R56, R70) -/

/-- A byte as the fetch of this step sees it: where the address was stored to since the last FENCE.I, the old or the new
content, whichever the free value says for the fetch, so for all its bytes (R44, R70, R422). -/
def State.fetchByte (s : State) (a : Nat) : Byte :=
  match s.stale.find? (fun c => c.1 == a) with
  | none => Memory.read s.mem a
  | some c => if Config.fetchSeesOld s.draws (unsigned s.cfg.xlen s.pc) then c.2 else Memory.read s.mem a

/-- The instruction word at an address, its bytes being those that `read` gives (R55). -/
def State.wordOf (s : State) (read : Nat → Byte) (pc : XWord) : IWord :=
  let b := fun k => read ((unsigned s.cfg.xlen pc + k) % 2 ^ s.cfg.xlen.bits)
  assembleParcels s.cfg.endian (b 0) (b 1) (b 2) (b 3)

/-- `Fetch(pc)` (R55). -/
def State.fetchWord (s : State) : IWord := s.wordOf s.fetchByte s.pc

/-- The fetch of a step: the alignment check, the permission check, then the word (R479 orders 1 and 2). -/
def State.fetch (s : State) : Except Exc IWord :=
  if unsigned s.cfg.xlen s.pc % 4 ≠ 0 then .error .instructionAddressMisaligned
  else match s.denied [.fetch] s.pc 4 with
    | some addr => .error (.accessFault addr .fetch)
    | none => .ok s.fetchWord

/-- The word of an instruction placed where the next fetch reads it, by the environment: not a store of the program, so the
fetch view agrees with it (R526). -/
def State.placeWord (s : State) (w : IWord) : State :=
  let cells := (s.span s.pc 4).zip (wordBytes s.cfg.endian w)
  { s with
    mem := cells.foldl (fun m c => Memory.write m c.1 c.2) s.mem
    stale := s.stale.filter fun c => !(s.span s.pc 4).contains c.1 }

/-! ### Time -/

/-- A clock `ticks` later: on RV32 the count goes on and its reads wrap; on RV64 a clock never overflows, so it counts no
further than its 64 bits hold (R39, R40, R433, R434). -/
def advanceClock (xl : Xlen) (count ticks : Nat) : Nat :=
  match xl with
  | .rv32 => count + ticks
  | .rv64 => count + min ticks (2 ^ 64 - 1 - count)

/-- What passes with every step: cycles, real time, and the number of the step (R433, R434). -/
def State.tick (s : State) : State :=
  { s with
    cycle := advanceClock s.cfg.xlen s.cycle (Config.cycleTicks s.draws)
    time := advanceClock s.cfg.xlen s.time (Config.timeTicks s.draws)
    draws := s.draws + 1 }

/-- Time passes with a step that ends in a next state. -/
def afterTick : Result → Result
  | .next s => .next s.tick
  | .fault r => .fault r
  | .refused r => .refused r

end Sys2Proof.Machine
end

