-- ==== Sys2Proof/Machine/Amo.lean ====
section
/-! DEFINITION. Atomic memory operations (spec/41_amo.md).  With one hardware thread an AMO is a load, an operation and a
store with nothing in between (R169). -/

namespace Sys2Proof.Machine

/-- A 32-bit AMO: the operator on the loaded word and `x[rs2][31:0]`; the old word, sign-extended, to `rd` (R151). -/
def amoW (op : BitVec 32 → BitVec 32 → BitVec 32) (rd rs1 rs2 : Reg) (s : State) : Result :=
  amo rd rs1 4 (fun t => (op (t.setWidth 32) (s.readW rs2)).setWidth 64)
    (fun t => sext s.cfg.xlen (t.setWidth 32)) s

/-- A 64-bit AMO, RV64 only (R151, R152). -/
def amoD (i : Instr) (op : BitVec 64 → BitVec 64 → BitVec 64) (rd rs1 rs2 : Reg) (s : State) : Result :=
  rv64Only i s (amo rd rs1 8 (fun t => op t (s.readX rs2)) (fun t => t) s)

/-! ### 32-bit -/

/-- AMOADD.W, integer add (R153). -/
def execAmoaddW (rd rs1 rs2 : Reg) (s : State) : Result :=
  amoW (fun t v => t + v) rd rs1 rs2 s

/-- AMOSWAP.W, swap (R154). -/
def execAmoswapW (rd rs1 rs2 : Reg) (s : State) : Result :=
  amoW (fun _ v => v) rd rs1 rs2 s

/-- AMOAND.W, AND (R155). -/
def execAmoandW (rd rs1 rs2 : Reg) (s : State) : Result :=
  amoW (fun t v => t &&& v) rd rs1 rs2 s

/-- AMOOR.W, OR (R156). -/
def execAmoorW (rd rs1 rs2 : Reg) (s : State) : Result :=
  amoW (fun t v => t ||| v) rd rs1 rs2 s

/-- AMOMIN.W, signed minimum (R157). -/
def execAmominW (rd rs1 rs2 : Reg) (s : State) : Result :=
  amoW (fun t v => if t.toInt < v.toInt then t else v) rd rs1 rs2 s

/-- AMOMAX.W, signed maximum (R158). -/
def execAmomaxW (rd rs1 rs2 : Reg) (s : State) : Result :=
  amoW (fun t v => if t.toInt > v.toInt then t else v) rd rs1 rs2 s

/-- AMOMINU.W, unsigned minimum (R159). -/
def execAmominuW (rd rs1 rs2 : Reg) (s : State) : Result :=
  amoW (fun t v => if t.toNat < v.toNat then t else v) rd rs1 rs2 s

/-- AMOMAXU.W, unsigned maximum (R160). -/
def execAmomaxuW (rd rs1 rs2 : Reg) (s : State) : Result :=
  amoW (fun t v => if t.toNat > v.toNat then t else v) rd rs1 rs2 s

/-! ### 64-bit -/

/-- AMOADD.D, integer add (R161). -/
def execAmoaddD (rd rs1 rs2 : Reg) (s : State) : Result :=
  amoD (.amoaddD rd rs1 rs2) (fun t v => t + v) rd rs1 rs2 s

/-- AMOSWAP.D, swap (R162). -/
def execAmoswapD (rd rs1 rs2 : Reg) (s : State) : Result :=
  amoD (.amoswapD rd rs1 rs2) (fun _ v => v) rd rs1 rs2 s

/-- AMOAND.D, AND (R163). -/
def execAmoandD (rd rs1 rs2 : Reg) (s : State) : Result :=
  amoD (.amoandD rd rs1 rs2) (fun t v => t &&& v) rd rs1 rs2 s

/-- AMOOR.D, OR (R164). -/
def execAmoorD (rd rs1 rs2 : Reg) (s : State) : Result :=
  amoD (.amoorD rd rs1 rs2) (fun t v => t ||| v) rd rs1 rs2 s

/-- AMOMIN.D, signed minimum (R165). -/
def execAmominD (rd rs1 rs2 : Reg) (s : State) : Result :=
  amoD (.amominD rd rs1 rs2) (fun t v => if t.toInt < v.toInt then t else v) rd rs1 rs2 s

/-- AMOMAX.D, signed maximum (R166). -/
def execAmomaxD (rd rs1 rs2 : Reg) (s : State) : Result :=
  amoD (.amomaxD rd rs1 rs2) (fun t v => if t.toInt > v.toInt then t else v) rd rs1 rs2 s

/-- AMOMINU.D, unsigned minimum (R167). -/
def execAmominuD (rd rs1 rs2 : Reg) (s : State) : Result :=
  amoD (.amominuD rd rs1 rs2) (fun t v => if t.toNat < v.toNat then t else v) rd rs1 rs2 s

/-- AMOMAXU.D, unsigned maximum (R168). -/
def execAmomaxuD (rd rs1 rs2 : Reg) (s : State) : Result :=
  amoD (.amomaxuD rd rs1 rs2) (fun t v => if t.toNat > v.toNat then t else v) rd rs1 rs2 s

end Sys2Proof.Machine
end

