-- ==== Sys2Proof/Machine/Control.lean ====
section
/-! DEFINITION. Control transfer (spec/44_control_transfer.md).  A transfer completes whatever its target; the alignment of
the target is checked by the next fetch (R275). -/

namespace Sys2Proof.Machine

/-- A jump that writes the address of the following instruction to `rd` (R263). -/
def jumpLink (rd : Reg) (target : XWord) (s : State) : Result := .next ((s.writeX rd s.pcPlus4).retireTo target)

/-- A conditional branch (R268). -/
def branch (taken : Bool) (imm12 : BitVec 12) (s : State) : Result :=
  .next (s.retireTo (if taken then s.branchTarget imm12 else s.pcPlus4))

/-- J (R261). -/
def execJ (off25 : BitVec 25) (s : State) : Result := .next (s.retireTo (s.jumpTarget off25))

/-- JAL, which links to `x1` (R262). -/
def execJal (off25 : BitVec 25) (s : State) : Result := jumpLink 1 (s.jumpTarget off25) s

/-- BEQ (R269). -/
def execBeq (rs1 rs2 : Reg) (imm12 : BitVec 12) (s : State) : Result := branch (s.readX rs1 == s.readX rs2) imm12 s

/-- BNE (R270). -/
def execBne (rs1 rs2 : Reg) (imm12 : BitVec 12) (s : State) : Result := branch (s.readX rs1 != s.readX rs2) imm12 s

/-- BLT (R271). -/
def execBlt (rs1 rs2 : Reg) (imm12 : BitVec 12) (s : State) : Result :=
  branch (decide (signed s.cfg.xlen (s.readX rs1) < signed s.cfg.xlen (s.readX rs2))) imm12 s

/-- BGE (R272). -/
def execBge (rs1 rs2 : Reg) (imm12 : BitVec 12) (s : State) : Result :=
  branch (decide (signed s.cfg.xlen (s.readX rs1) ≥ signed s.cfg.xlen (s.readX rs2))) imm12 s

/-- BLTU (R273). -/
def execBltu (rs1 rs2 : Reg) (imm12 : BitVec 12) (s : State) : Result :=
  branch (decide (unsigned s.cfg.xlen (s.readX rs1) < unsigned s.cfg.xlen (s.readX rs2))) imm12 s

/-- BGEU (R274). -/
def execBgeu (rs1 rs2 : Reg) (imm12 : BitVec 12) (s : State) : Result :=
  branch (decide (unsigned s.cfg.xlen (s.readX rs1) ≥ unsigned s.cfg.xlen (s.readX rs2))) imm12 s

/-- JALR.C (R263, R264). -/
def execJalrC (rd rs1 : Reg) (imm12 : BitVec 12) (s : State) : Result := jumpLink rd (s.address rs1 imm12) s

/-- JALR.R (R263, R265). -/
def execJalrR (rd rs1 : Reg) (imm12 : BitVec 12) (s : State) : Result := jumpLink rd (s.address rs1 imm12) s

/-- JALR.J (R263, R266). -/
def execJalrJ (rd rs1 : Reg) (imm12 : BitVec 12) (s : State) : Result := jumpLink rd (s.address rs1 imm12) s

/-- RDNPC (R267). -/
def execRdnpc (rd : Reg) (s : State) : Result := putX rd s.pcPlus4 s

end Sys2Proof.Machine
end

