-- ==== Sys2Proof/Machine/Fence.lean ====
section
/-! DEFINITION. FENCE and FENCE.I (spec/47_fence.md).  The `rd`, `rs1` and `imm12` fields name nothing (R420). -/

namespace Sys2Proof.Machine

/-- The fetch view becomes the memory (R422). -/
def State.syncFetch (s : State) : State := { s with stale := [] }

/-- FENCE.I (R422). -/
def execFenceI (_rd _rs1 : Reg) (_imm12 : BitVec 12) (s : State) : Result := .next s.syncFetch.retire

/-- FENCE (R421): it orders this thread's accesses as other threads see them, which with one thread nothing shows
(log entry 14). -/
def execFence (_rd _rs1 : Reg) (_imm12 : BitVec 12) (s : State) : Result := .next s.retire

end Sys2Proof.Machine
end

