-- ==== Sys2Proof/Machine/Float.lean ====
section
/-! DEFINITION. The arithmetic of IEEE 754-2008 as spec/45_fp_arithmetic.md R291 to R303 and
spec/46_fp_convert_move_compare.md state it, as functions on bit patterns.

An operand is unpacked to an exact value, the operation is exact, and the one narrowing is `roundTo` (R295).  A pattern is
held in 64 bits, a single zero-extended.  PRESUMED where the spec marks a rule as general knowledge (log entry 21). -/

namespace Sys2Proof.Machine

/-! ### Formats and patterns (R291) -/

/-- The two formats. -/
inductive Fmt where
  | single
  | double
  deriving DecidableEq, Repr

/-- A bit pattern, a single zero-extended. -/
abbrev Pattern := BitVec 64

def Fmt.width : Fmt → Nat
  | .single => 32
  | .double => 64

def Fmt.expBits : Fmt → Nat
  | .single => 8
  | .double => 11

/-- The width of the fraction field, one less than the precision. -/
def Fmt.fracBits : Fmt → Nat
  | .single => 23
  | .double => 52

def Fmt.bias : Fmt → Nat
  | .single => 127
  | .double => 1023

/-- The exponent of the smallest normal number. -/
def Fmt.emin (f : Fmt) : Int := 1 - f.bias

/-- The exponent of the largest finite numbers. -/
def Fmt.emax (f : Fmt) : Int := f.bias

/-- The exponent field of infinities and NaNs, all ones. -/
def Fmt.expMax (f : Fmt) : Nat := 2 ^ f.expBits - 1

def signField (f : Fmt) (b : Pattern) : Bool := b.getLsbD (f.width - 1)

def expField (f : Fmt) (b : Pattern) : Nat := b.toNat / 2 ^ f.fracBits % 2 ^ f.expBits

def fracField (f : Fmt) (b : Pattern) : Nat := b.toNat % 2 ^ f.fracBits

/-- The pattern with a sign and with exponent and fraction fields together as one number. -/
def packBits (f : Fmt) (neg : Bool) (expFrac : Nat) : Pattern :=
  BitVec.ofNat 64 ((if neg then 2 ^ (f.width - 1) else 0) + expFrac)

def zeroBits (f : Fmt) (neg : Bool) : Pattern := packBits f neg 0

def infBits (f : Fmt) (neg : Bool) : Pattern := packBits f neg (f.expMax * 2 ^ f.fracBits)

def maxFiniteBits (f : Fmt) (neg : Bool) : Pattern := packBits f neg (f.expMax * 2 ^ f.fracBits - 1)

/-- The canonical NaN: sign 0, every exponent and fraction bit 1 (R296). -/
def canonicalNaN (f : Fmt) : Pattern := packBits f false (2 ^ (f.width - 1) - 1)

/-- The quiet bit, the most significant fraction bit (R291). -/
def quietBit (f : Fmt) : Pattern := BitVec.ofNat 64 (2 ^ (f.fracBits - 1))

def isNaN (f : Fmt) (b : Pattern) : Bool := expField f b == f.expMax && fracField f b != 0

def isSignaling (f : Fmt) (b : Pattern) : Bool := isNaN f b && !b.getLsbD (f.fracBits - 1)

/-! ### Exact values -/

/-- The value of a pattern: a finite one is `m * 2^e` with a sign, zeros being signed too (R291). -/
inductive FVal where
  | nan
  | inf (neg : Bool)
  | fin (neg : Bool) (m : Nat) (e : Int)
  deriving DecidableEq, Repr

def unpack (f : Fmt) (b : Pattern) : FVal :=
  let neg := signField f b
  let ex := expField f b
  let fr := fracField f b
  if ex = f.expMax then (if fr = 0 then .inf neg else .nan)
  else if ex = 0 then .fin neg fr (f.emin - f.fracBits)
  else .fin neg (2 ^ f.fracBits + fr) ((ex : Int) - f.bias - f.fracBits)

/-- An exact positive real: `num / den`, or its square root. -/
structure Mag where
  num  : Nat
  den  : Nat
  root : Bool
  deriving DecidableEq, Repr

/-- `m * 2^e`. -/
def Mag.dyadic (m : Nat) (e : Int) : Mag := { num := m * 2 ^ e.toNat, den := 2 ^ (-e).toNat, root := false }

/-- The largest `e` with `2^e ≤ n / d`. -/
def log2Ratio (n d : Nat) : Int :=
  let l : Int := (n.log2 : Int) - d.log2
  if d * 2 ^ l.toNat ≤ n * 2 ^ (-l).toNat then l else l - 1

/-- The largest `e` with `2^e ≤ v`. -/
def Mag.log2 (v : Mag) : Int := if v.root then log2Ratio v.num v.den / 2 else log2Ratio v.num v.den

/-- The integer square root, found bit by bit from bit `k - 1` down, above the part `r` found so far. -/
def isqrtFrom : Nat → Nat → Nat → Nat
  | 0, r, _ => r
  | k + 1, r, n => isqrtFrom k (if (r + 2 ^ k) * (r + 2 ^ k) ≤ n then r + 2 ^ k else r) n

/-- The integer square root. -/
def isqrt (n : Nat) : Nat := isqrtFrom (n.log2 / 2 + 1) 0 n

/-- `floor(v / 2^q)`, and whether the division leaves no rest. -/
def Mag.floorAt (v : Mag) (q : Int) : Nat × Bool :=
  if v.root then
    let n := v.num * 2 ^ (-(2 * q)).toNat
    let d := v.den * 2 ^ (2 * q).toNat
    let r := isqrt (n / d)
    (r, r * r * d == n)
  else
    let n := v.num * 2 ^ (-q).toNat
    let d := v.den * 2 ^ q.toNat
    (n / d, n % d == 0)

/-- A value cut at a grid: how many whole steps, whether the next half step is in it, and whether more is. -/
structure Cut where
  whole : Nat
  half  : Bool
  rest  : Bool
  deriving DecidableEq, Repr

/-- The value cut at the grid of spacing `2^q`. -/
def Mag.cut (v : Mag) (q : Int) : Cut :=
  let h := v.floorAt (q - 1)
  { whole := h.1 / 2, half := h.1 % 2 == 1, rest := !h.2 }

def Cut.exact (c : Cut) : Bool := !c.half && !c.rest

/-! ### Rounding (R295) -/

/-- The cut value rounded to a whole number of steps, as a magnitude with a sign. -/
def Cut.round (c : Cut) (m : RMode) (neg : Bool) : Nat :=
  let up := match m with
    | .rne => c.half && (c.rest || c.whole % 2 == 1)
    | .rmm => c.half
    | .rtz => false
    | .rdn => neg && !c.exact
    | .rup => !neg && !c.exact
  if up then c.whole + 1 else c.whole

/-- A result and the flags it raises. -/
structure FResult where
  bits  : Pattern
  flags : FFlags
  deriving DecidableEq, Repr

/-- A result that raises nothing. -/
def FResult.quiet (b : Pattern) : FResult := { bits := b, flags := FFlags.none }

/-- The overflow result of each direction (R295 c). -/
def overflowBits (f : Fmt) (m : RMode) (neg : Bool) : Pattern :=
  match m with
  | .rne | .rmm => infBits f neg
  | .rtz => maxFiniteBits f neg
  | .rdn => if neg then infBits f true else maxFiniteBits f false
  | .rup => if neg then maxFiniteBits f true else infBits f false

/-- `Round(fmt, m, v)` for a non-zero `v` given as sign and magnitude (R295 b to e).  `n` steps of `2^(e - p + 1)` is `v`
rounded to `p` bits with unbounded exponent; `n = 2^p` is the next power of two. -/
def roundTo (f : Fmt) (tiny : Tininess) (m : RMode) (neg : Bool) (v : Mag) : FResult :=
  let e := v.log2
  let c := v.cut (e - f.fracBits)
  let n := c.round m neg
  let e' := if n = 2 ^ (f.fracBits + 1) then e + 1 else e
  let isTiny := match tiny with
    | .beforeRounding => decide (e < f.emin)
    | .afterRounding => decide (e' < f.emin)
  if e' > f.emax then
    { bits := overflowBits f m neg, flags := { FFlags.none with of := true, nx := true } }
  else if isTiny then
    let cs := v.cut (f.emin - f.fracBits)
    { bits := packBits f neg (cs.round m neg)
      flags := { FFlags.none with uf := !cs.exact, nx := !cs.exact } }
  else
    { bits := packBits f neg ((e + f.bias).toNat * 2 ^ f.fracBits + (n - 2 ^ f.fracBits))
      flags := { FFlags.none with nx := !c.exact } }

/-! ### Exact operations (R303) -/

/-- What an operation on non-NaN operands gives before rounding. -/
inductive Exact where
  /-- invalid: the canonical NaN and NV -/
  | invalid
  /-- a finite non-zero number divided by zero: an infinity and DZ -/
  | divZero (neg : Bool)
  | inf (neg : Bool)
  | zero (neg : Bool)
  /-- a non-zero value, to be rounded -/
  | value (neg : Bool) (v : Mag)
  deriving DecidableEq, Repr

/-- The result of an operation (R296, R301 steps 5 to 7). -/
def deliver (f : Fmt) (tiny : Tininess) (m : RMode) : Exact → FResult
  | .invalid => { bits := canonicalNaN f, flags := { FFlags.none with nv := true } }
  | .divZero neg => { bits := infBits f neg, flags := { FFlags.none with dz := true } }
  | .inf neg => FResult.quiet (infBits f neg)
  | .zero neg => FResult.quiet (zeroBits f neg)
  | .value neg v => roundTo f tiny m neg v

/-- `m * 2^e` with its sign, as a result to be rounded. -/
def Exact.ofFin (neg : Bool) (m : Nat) (e : Int) : Exact := if m = 0 then .zero neg else .value neg (Mag.dyadic m e)

/-- The signed integer `m * 2^(e - e0)`, for `e0 ≤ e`. -/
def alignTo (e0 : Int) (neg : Bool) (m : Nat) (e : Int) : Int :=
  let a : Int := (m * 2 ^ (e - e0).toNat : Nat)
  if neg then -a else a

/-- The sign of an exact zero sum: that of two zeros of one sign, else plus, and minus in RDN (R303). -/
def zeroSumNeg (m : RMode) (na : Bool) (ma : Nat) (nb : Bool) (mb : Nat) : Bool :=
  if ma = 0 ∧ mb = 0 ∧ na = nb then na else decide (m = .rdn)

/-- `a + b`. -/
def exactAdd (m : RMode) : FVal → FVal → Exact
  | .inf na, .inf nb => if na = nb then .inf na else .invalid
  | .inf na, _ => .inf na
  | _, .inf nb => .inf nb
  | .fin na ma ea, .fin nb mb eb =>
    let e0 := min ea eb
    let sum := alignTo e0 na ma ea + alignTo e0 nb mb eb
    if sum = 0 then .zero (zeroSumNeg m na ma nb mb) else .value (decide (sum < 0)) (Mag.dyadic sum.natAbs e0)
  | _, _ => .invalid

/-- `a * b` as an exact value; `none` where it is invalid. -/
def exactMul : FVal → FVal → Option FVal
  | .fin na ma ea, .fin nb mb eb => some (.fin (na ^^ nb) (ma * mb) (ea + eb))
  | .inf na, .inf nb => some (.inf (na ^^ nb))
  | .inf na, .fin nb mb _ => if mb = 0 then none else some (.inf (na ^^ nb))
  | .fin na ma _, .inf nb => if ma = 0 then none else some (.inf (na ^^ nb))
  | _, _ => none

/-- An exact value as the result of an operation. -/
def Exact.ofVal : Option FVal → Exact
  | some (.fin neg m e) => Exact.ofFin neg m e
  | some (.inf neg) => .inf neg
  | _ => .invalid

/-- `a / b`. -/
def exactDiv : FVal → FVal → Exact
  | .inf _, .inf _ => .invalid
  | .inf na, .fin nb _ _ => .inf (na ^^ nb)
  | .fin na _ _, .inf nb => .zero (na ^^ nb)
  | .fin na ma ea, .fin nb mb eb =>
    if mb = 0 then (if ma = 0 then .invalid else .divZero (na ^^ nb))
    else if ma = 0 then .zero (na ^^ nb)
    else .value (na ^^ nb)
      { num := ma * 2 ^ (ea - eb).toNat, den := mb * 2 ^ (eb - ea).toNat, root := false }
  | _, _ => .invalid

/-- `sqrt(a)`. -/
def exactSqrt : FVal → Exact
  | .inf neg => if neg then .invalid else .inf false
  | .fin neg m e =>
    if m = 0 then .zero neg else if neg then .invalid else .value false { Mag.dyadic m e with root := true }
  | .nan => .invalid

def FVal.negate : FVal → FVal
  | .nan => .nan
  | .inf neg => .inf (!neg)
  | .fin neg m e => .fin (!neg) m e

/-- `a` with its sign inverted where `inv` says so. -/
def FVal.negateIf (inv : Bool) (a : FVal) : FVal := if inv then a.negate else a

/-- `±(a * b) ± c`, the product exact (R318). -/
def exactFma (m : RMode) (negProduct negAddend : Bool) (a b c : FVal) : Exact :=
  match exactMul a b with
  | none => .invalid
  | some p => exactAdd m (p.negateIf negProduct) (c.negateIf negAddend)

/-! ### NaN operands -/

def nvIf (b : Bool) : FFlags := { FFlags.none with nv := b }

/-- The result where an operand is a NaN: the first signaling one made quiet, else the first quiet one (R297). -/
def nanResult (f : Fmt) (ops : List Pattern) : Option FResult :=
  match ops.find? (isSignaling f) with
  | some n => some { bits := n ||| quietBit f, flags := nvIf true }
  | none => (ops.find? (isNaN f)).map FResult.quiet

/-- Arithmetic on two operands (R301). -/
def arith2 (f : Fmt) (tiny : Tininess) (m : RMode) (op : FVal → FVal → Exact) (a b : Pattern) : FResult :=
  match nanResult f [a, b] with
  | some r => r
  | none => deliver f tiny m (op (unpack f a) (unpack f b))

def fadd (f : Fmt) (tiny : Tininess) (m : RMode) (a b : Pattern) : FResult := arith2 f tiny m (exactAdd m) a b

/-- `a - b` is `a + (-b)` (R303). -/
def fsub (f : Fmt) (tiny : Tininess) (m : RMode) (a b : Pattern) : FResult :=
  arith2 f tiny m (fun a b => exactAdd m a b.negate) a b

def fmul (f : Fmt) (tiny : Tininess) (m : RMode) (a b : Pattern) : FResult :=
  arith2 f tiny m (fun a b => Exact.ofVal (exactMul a b)) a b

def fdiv (f : Fmt) (tiny : Tininess) (m : RMode) (a b : Pattern) : FResult := arith2 f tiny m exactDiv a b

def fsqrt (f : Fmt) (tiny : Tininess) (m : RMode) (a : Pattern) : FResult :=
  match nanResult f [a] with
  | some r => r
  | none => deliver f tiny m (exactSqrt (unpack f a))

/-- The product of an infinity and a zero. -/
def infTimesZero : FVal → FVal → Bool
  | .inf _, .fin _ m _ => m == 0
  | .fin _ m _, .inf _ => m == 0
  | _, _ => false

/-- Fused multiply-add (R318); infinity times zero plus a quiet NaN raises NV as `fma_inf_zero_qnan_nv` says (R302). -/
def fma (f : Fmt) (cfg : FPConfig) (m : RMode) (negProduct negAddend : Bool) (a b c : Pattern) : FResult :=
  match nanResult f [a, b, c] with
  | some r =>
    { r with flags := { r.flags with
        nv := r.flags.nv || (cfg.fmaInfZeroQnanNV && infTimesZero (unpack f a) (unpack f b)) } }
  | none => deliver f cfg.tininess m (exactFma m negProduct negAddend (unpack f a) (unpack f b) (unpack f c))

/-! ### Order, minimum and maximum -/

/-- `a < b` by value; `-0` is not less than `+0`, and a NaN is related to nothing (R383). -/
def FVal.lt : FVal → FVal → Bool
  | .nan, _ | _, .nan => false
  | .inf na, .inf nb => na && !nb
  | .inf na, .fin .. => na
  | .fin .., .inf nb => !nb
  | .fin na ma ea, .fin nb mb eb =>
    let e0 := min ea eb
    decide (alignTo e0 na ma ea < alignTo e0 nb mb eb)

/-- `a = b` by value; `-0` equals `+0` (R383). -/
def FVal.eqv : FVal → FVal → Bool
  | .nan, _ | _, .nan => false
  | a, b => !a.lt b && !b.lt a

/-- The NaN cases of FMIN and FMAX: the first signaling NaN made quiet; two quiet NaNs, the first; one, the other operand
(R298). -/
def minMaxNaN (f : Fmt) (a b : Pattern) : Option FResult :=
  match [a, b].find? (isSignaling f) with
  | some n => some { bits := n ||| quietBit f, flags := nvIf true }
  | none =>
    if isNaN f a then some (FResult.quiet (if isNaN f b then a else b))
    else if isNaN f b then some (FResult.quiet a)
    else none

/-- Both operands are zeros, of different signs. -/
def mixedZeros : FVal → FVal → Bool
  | .fin na ma _, .fin nb mb _ => ma == 0 && mb == 0 && (na != nb)
  | _, _ => false

/-- FMIN (R309). -/
def fmin (f : Fmt) (cfg : FPConfig) (a b : Pattern) : FResult :=
  match minMaxNaN f a b with
  | some r => r
  | none =>
    let va := unpack f a
    let vb := unpack f b
    if va.lt vb then FResult.quiet a
    else if vb.lt va then FResult.quiet b
    else if mixedZeros va vb then
      FResult.quiet (zeroBits f (if signField f a then cfg.zeroPick.minNegPos else cfg.zeroPick.minPosNeg))
    else FResult.quiet a

/-- FMAX (R310). -/
def fmax (f : Fmt) (cfg : FPConfig) (a b : Pattern) : FResult :=
  match minMaxNaN f a b with
  | some r => r
  | none =>
    let va := unpack f a
    let vb := unpack f b
    if vb.lt va then FResult.quiet a
    else if va.lt vb then FResult.quiet b
    else if mixedZeros va vb then
      FResult.quiet (zeroBits f (if signField f a then cfg.zeroPick.maxNegPos else cfg.zeroPick.maxPosNeg))
    else FResult.quiet a

/-- The flags of a comparison: a signaling NaN raises NV, a quiet one where `onQuiet` says so (R383). -/
def compareFlags (f : Fmt) (onQuiet : Bool) (a b : Pattern) : FFlags :=
  nvIf (isSignaling f a || isSignaling f b || (onQuiet && (isNaN f a || isNaN f b)))

/-! ### Conversions -/

/-- The integer a value rounds to, and whether it is the value (R351 `RoundToIntegral`). -/
def roundToIntegral (m : RMode) (neg : Bool) (mant : Nat) (e : Int) : Int × Bool :=
  if mant = 0 then (0, true)
  else
    let c := (Mag.dyadic mant e).cut 0
    let n : Int := (c.round m neg : Nat)
    (if neg then -n else n, c.exact)

/-- The lowest integer of a target. -/
def intLo (w : Nat) (isSigned : Bool) : Int := if isSigned then -2 ^ (w - 1) else 0

/-- The highest integer of a target. -/
def intHi (w : Nat) (isSigned : Bool) : Int := if isSigned then 2 ^ (w - 1) - 1 else 2 ^ w - 1

/-- Why the conversion of a value to an integer is invalid, or the integer and whether it is the value (R351). -/
def toInteger (w : Nat) (isSigned : Bool) (m : RMode) : FVal → CvtInvalid ⊕ (Int × Bool)
  | .nan => .inl .nan
  | .inf neg => .inl (if neg then .underflow else .overflow)
  | .fin neg mant e =>
    let r := roundToIntegral m neg mant e
    if r.1 < intLo w isSigned then .inl .underflow
    else if r.1 > intHi w isSigned then .inl .overflow
    else .inr r

/-- The integer for one kind of invalid conversion. -/
def InvalidInts.of {w : Nat} (t : InvalidInts w) : CvtInvalid → BitVec w
  | .nan => t.nan
  | .overflow => t.overflow
  | .underflow => t.underflow

/-- What an invalid conversion delivers, `FPConfig.cvt_invalid_result(W, signed, kind)` (R351); `w` is 32 or 64. -/
def cvtInvalidBits (cfg : FPConfig) (w : Nat) (isSigned : Bool) (kind : CvtInvalid) : BitVec 64 :=
  let t := cfg.cvtInvalid
  if w = 64 then InvalidInts.of (if isSigned then t.l else t.lu) kind
  else (InvalidInts.of (if isSigned then t.w else t.wu) kind).setWidth 64

/-- `CvtToInt(W, signed, m, a)` (R351); the low `w` bits are the result. -/
def cvtToInt (f : Fmt) (cfg : FPConfig) (w : Nat) (isSigned : Bool) (m : RMode) (a : Pattern) : FResult :=
  match toInteger w isSigned m (unpack f a) with
  | .inl kind => { bits := cvtInvalidBits cfg w isSigned kind, flags := nvIf true }
  | .inr (n, exact) =>
    { bits := BitVec.ofInt 64 n, flags := { FFlags.none with nx := !exact && cfg.cvtInexact } }

/-- An integer to floating point; zero gives `+0` (R360). -/
def cvtFromInt (f : Fmt) (tiny : Tininess) (m : RMode) (n : Int) : FResult :=
  if n = 0 then FResult.quiet (zeroBits f false)
  else roundTo f tiny m (decide (n < 0)) (Mag.dyadic n.natAbs 0)

/-- The sign of a converted NaN (R302). -/
def cvtNaNNeg (cfg : FPConfig) (neg : Bool) : Bool := if neg then cfg.cvtNanSign.ofNeg else cfg.cvtNanSign.ofPos

/-- Double to single (R369). -/
def cvtSofD (cfg : FPConfig) (m : RMode) (a : Pattern) : FResult :=
  match unpack .double a with
  | .nan =>
    { bits := packBits .single (cvtNaNNeg cfg (signField .double a))
        (0xFF * 2 ^ 23 + (fracField .double a / 2 ^ 29 ||| 0x400000))
      flags := nvIf (isSignaling .double a) }
  | .inf neg => FResult.quiet (infBits .single neg)
  | .fin neg mant e => deliver .single cfg.tininess m (Exact.ofFin neg mant e)

/-- Single to double, which never rounds (R370). -/
def cvtDofS (cfg : FPConfig) (a : Pattern) : FResult :=
  match unpack .single a with
  | .nan =>
    { bits := packBits .double (cvtNaNNeg cfg (signField .single a))
        (0x7FF * 2 ^ 52 + (fracField .single a ||| 0x400000) * 2 ^ 29)
      flags := nvIf (isSignaling .single a) }
  | .inf neg => FResult.quiet (infBits .double neg)
  | .fin neg mant e => FResult.quiet (deliver .double cfg.tininess .rne (Exact.ofFin neg mant e)).bits

/-! ### Sign injection (R371) -/

/-- All bits of `a` but the sign, which is `neg`. -/
def withSign (f : Fmt) (neg : Bool) (a : Pattern) : Pattern := packBits f neg (a.toNat % 2 ^ (f.width - 1))

end Sys2Proof.Machine
end

