-- ==== Sys2Proof/Machine/FpArith.lean ====
section
/-! DEFINITION. Floating-point arithmetic instructions (spec/45_fp_arithmetic.md).  Each makes the rounding-mode check before
it reads a register (R293, R301). -/

namespace Sys2Proof.Machine

/-- `f[r].S` as a pattern (R300). -/
def State.patS (s : State) (slot : Nat) (r : Reg) : Pattern := (s.readS slot r).setWidth 64

/-- `f[r].D` as a pattern (R300). -/
def State.patD (s : State) (slot : Nat) (r : Reg) : Pattern := s.readD slot r

/-- A single result and its flags (R300, R301 step 8). -/
def putS (rd : Reg) (r : FResult) (s : State) : Result := putFFlags rd (.s (r.bits.setWidth 32)) r.flags s

/-- A double result and its flags (R300, R301 step 8). -/
def putD (rd : Reg) (r : FResult) (s : State) : Result := putFFlags rd (.d r.bits) r.flags s

/-- The tininess rule of the run (R302). -/
def State.tiny (s : State) : Tininess := s.cfg.fp.tininess

/-! ### One and two operands -/

/-- FADD.S (R304). -/
def execFaddS (rd rs1 rs2 : Reg) (rm : BitVec 3) (s : State) : Result :=
  withRM (.faddS rd rs1 rs2 rm) rm s fun m => putS rd (fadd .single s.tiny m (s.patS 1 rs1) (s.patS 2 rs2)) s

/-- FSUB.S (R305). -/
def execFsubS (rd rs1 rs2 : Reg) (rm : BitVec 3) (s : State) : Result :=
  withRM (.fsubS rd rs1 rs2 rm) rm s fun m => putS rd (fsub .single s.tiny m (s.patS 1 rs1) (s.patS 2 rs2)) s

/-- FMUL.S (R306). -/
def execFmulS (rd rs1 rs2 : Reg) (rm : BitVec 3) (s : State) : Result :=
  withRM (.fmulS rd rs1 rs2 rm) rm s fun m => putS rd (fmul .single s.tiny m (s.patS 1 rs1) (s.patS 2 rs2)) s

/-- FDIV.S (R307). -/
def execFdivS (rd rs1 rs2 : Reg) (rm : BitVec 3) (s : State) : Result :=
  withRM (.fdivS rd rs1 rs2 rm) rm s fun m => putS rd (fdiv .single s.tiny m (s.patS 1 rs1) (s.patS 2 rs2)) s

/-- FSQRT.S (R308). -/
def execFsqrtS (rd rs1 : Reg) (rm : BitVec 3) (s : State) : Result :=
  withRM (.fsqrtS rd rs1 rm) rm s fun m => putS rd (fsqrt .single s.tiny m (s.patS 1 rs1)) s

/-- FMIN.S (R309). -/
def execFminS (rd rs1 rs2 : Reg) (s : State) : Result :=
  putS rd (fmin .single s.cfg.fp (s.patS 1 rs1) (s.patS 2 rs2)) s

/-- FMAX.S (R310). -/
def execFmaxS (rd rs1 rs2 : Reg) (s : State) : Result :=
  putS rd (fmax .single s.cfg.fp (s.patS 1 rs1) (s.patS 2 rs2)) s

/-- FADD.D (R311). -/
def execFaddD (rd rs1 rs2 : Reg) (rm : BitVec 3) (s : State) : Result :=
  withRM (.faddD rd rs1 rs2 rm) rm s fun m => putD rd (fadd .double s.tiny m (s.patD 1 rs1) (s.patD 2 rs2)) s

/-- FSUB.D (R312). -/
def execFsubD (rd rs1 rs2 : Reg) (rm : BitVec 3) (s : State) : Result :=
  withRM (.fsubD rd rs1 rs2 rm) rm s fun m => putD rd (fsub .double s.tiny m (s.patD 1 rs1) (s.patD 2 rs2)) s

/-- FMUL.D (R313). -/
def execFmulD (rd rs1 rs2 : Reg) (rm : BitVec 3) (s : State) : Result :=
  withRM (.fmulD rd rs1 rs2 rm) rm s fun m => putD rd (fmul .double s.tiny m (s.patD 1 rs1) (s.patD 2 rs2)) s

/-- FDIV.D (R314). -/
def execFdivD (rd rs1 rs2 : Reg) (rm : BitVec 3) (s : State) : Result :=
  withRM (.fdivD rd rs1 rs2 rm) rm s fun m => putD rd (fdiv .double s.tiny m (s.patD 1 rs1) (s.patD 2 rs2)) s

/-- FSQRT.D (R315). -/
def execFsqrtD (rd rs1 : Reg) (rm : BitVec 3) (s : State) : Result :=
  withRM (.fsqrtD rd rs1 rm) rm s fun m => putD rd (fsqrt .double s.tiny m (s.patD 1 rs1)) s

/-- FMIN.D (R316). -/
def execFminD (rd rs1 rs2 : Reg) (s : State) : Result :=
  putD rd (fmin .double s.cfg.fp (s.patD 1 rs1) (s.patD 2 rs2)) s

/-- FMAX.D (R317). -/
def execFmaxD (rd rs1 rs2 : Reg) (s : State) : Result :=
  putD rd (fmax .double s.cfg.fp (s.patD 1 rs1) (s.patD 2 rs2)) s

/-! ### Fused multiply-add (R318) -/

/-- FMADD.S (R319). -/
def execFmaddS (rd rs1 rs2 rs3 : Reg) (rm : BitVec 3) (s : State) : Result :=
  withRM (.fmaddS rd rs1 rs2 rs3 rm) rm s fun m =>
    putS rd (fma .single s.cfg.fp m false false (s.patS 1 rs1) (s.patS 2 rs2) (s.patS 3 rs3)) s

/-- FMSUB.S (R320). -/
def execFmsubS (rd rs1 rs2 rs3 : Reg) (rm : BitVec 3) (s : State) : Result :=
  withRM (.fmsubS rd rs1 rs2 rs3 rm) rm s fun m =>
    putS rd (fma .single s.cfg.fp m false true (s.patS 1 rs1) (s.patS 2 rs2) (s.patS 3 rs3)) s

/-- FNMSUB.S (R321). -/
def execFnmsubS (rd rs1 rs2 rs3 : Reg) (rm : BitVec 3) (s : State) : Result :=
  withRM (.fnmsubS rd rs1 rs2 rs3 rm) rm s fun m =>
    putS rd (fma .single s.cfg.fp m true false (s.patS 1 rs1) (s.patS 2 rs2) (s.patS 3 rs3)) s

/-- FNMADD.S (R322). -/
def execFnmaddS (rd rs1 rs2 rs3 : Reg) (rm : BitVec 3) (s : State) : Result :=
  withRM (.fnmaddS rd rs1 rs2 rs3 rm) rm s fun m =>
    putS rd (fma .single s.cfg.fp m true true (s.patS 1 rs1) (s.patS 2 rs2) (s.patS 3 rs3)) s

/-- FMADD.D (R323). -/
def execFmaddD (rd rs1 rs2 rs3 : Reg) (rm : BitVec 3) (s : State) : Result :=
  withRM (.fmaddD rd rs1 rs2 rs3 rm) rm s fun m =>
    putD rd (fma .double s.cfg.fp m false false (s.patD 1 rs1) (s.patD 2 rs2) (s.patD 3 rs3)) s

/-- FMSUB.D (R324). -/
def execFmsubD (rd rs1 rs2 rs3 : Reg) (rm : BitVec 3) (s : State) : Result :=
  withRM (.fmsubD rd rs1 rs2 rs3 rm) rm s fun m =>
    putD rd (fma .double s.cfg.fp m false true (s.patD 1 rs1) (s.patD 2 rs2) (s.patD 3 rs3)) s

/-- FNMSUB.D (R325). -/
def execFnmsubD (rd rs1 rs2 rs3 : Reg) (rm : BitVec 3) (s : State) : Result :=
  withRM (.fnmsubD rd rs1 rs2 rs3 rm) rm s fun m =>
    putD rd (fma .double s.cfg.fp m true false (s.patD 1 rs1) (s.patD 2 rs2) (s.patD 3 rs3)) s

/-- FNMADD.D (R326). -/
def execFnmaddD (rd rs1 rs2 rs3 : Reg) (rm : BitVec 3) (s : State) : Result :=
  withRM (.fnmaddD rd rs1 rs2 rs3 rm) rm s fun m =>
    putD rd (fma .double s.cfg.fp m true true (s.patD 1 rs1) (s.patD 2 rs2) (s.patD 3 rs3)) s

end Sys2Proof.Machine
end

