-- ==== Sys2Proof/Machine/FpConvert.lean ====
section
/-! DEFINITION. Floating-point conversions, sign injection, moves, comparisons and the access to `fsr`
(spec/46_fp_convert_move_compare.md). -/

namespace Sys2Proof.Machine

/-- A conversion to a 32-bit integer, sign-extended into `x[rd]` for the unsigned form too (R351). -/
def putInt32 (rd : Reg) (r : FResult) (s : State) : Result :=
  putXFlags rd (sext s.cfg.xlen (r.bits.setWidth 32)) r.flags s

/-- A conversion to a 64-bit integer (R351). -/
def putInt64 (rd : Reg) (r : FResult) (s : State) : Result := putXFlags rd r.bits r.flags s

/-! ### Floating point to integer -/

/-- FCVT.L.S (R352). -/
def execFcvtLS (rd rs1 : Reg) (rm : BitVec 3) (s : State) : Result :=
  rv64Only (.fcvtLS rd rs1 rm) s <| withRM (.fcvtLS rd rs1 rm) rm s fun m =>
    putInt64 rd (cvtToInt .single s.cfg.fp 64 true m (s.patS 1 rs1)) s

/-- FCVT.LU.S (R353). -/
def execFcvtLUS (rd rs1 : Reg) (rm : BitVec 3) (s : State) : Result :=
  rv64Only (.fcvtLUS rd rs1 rm) s <| withRM (.fcvtLUS rd rs1 rm) rm s fun m =>
    putInt64 rd (cvtToInt .single s.cfg.fp 64 false m (s.patS 1 rs1)) s

/-- FCVT.W.S (R354). -/
def execFcvtWS (rd rs1 : Reg) (rm : BitVec 3) (s : State) : Result :=
  withRM (.fcvtWS rd rs1 rm) rm s fun m =>
    putInt32 rd (cvtToInt .single s.cfg.fp 32 true m (s.patS 1 rs1)) s

/-- FCVT.WU.S (R355). -/
def execFcvtWUS (rd rs1 : Reg) (rm : BitVec 3) (s : State) : Result :=
  withRM (.fcvtWUS rd rs1 rm) rm s fun m =>
    putInt32 rd (cvtToInt .single s.cfg.fp 32 false m (s.patS 1 rs1)) s

/-- FCVT.L.D (R356). -/
def execFcvtLD (rd rs1 : Reg) (rm : BitVec 3) (s : State) : Result :=
  rv64Only (.fcvtLD rd rs1 rm) s <| withRM (.fcvtLD rd rs1 rm) rm s fun m =>
    putInt64 rd (cvtToInt .double s.cfg.fp 64 true m (s.patD 1 rs1)) s

/-- FCVT.LU.D (R357). -/
def execFcvtLUD (rd rs1 : Reg) (rm : BitVec 3) (s : State) : Result :=
  rv64Only (.fcvtLUD rd rs1 rm) s <| withRM (.fcvtLUD rd rs1 rm) rm s fun m =>
    putInt64 rd (cvtToInt .double s.cfg.fp 64 false m (s.patD 1 rs1)) s

/-- FCVT.W.D (R358). -/
def execFcvtWD (rd rs1 : Reg) (rm : BitVec 3) (s : State) : Result :=
  withRM (.fcvtWD rd rs1 rm) rm s fun m =>
    putInt32 rd (cvtToInt .double s.cfg.fp 32 true m (s.patD 1 rs1)) s

/-- FCVT.WU.D (R359). -/
def execFcvtWUD (rd rs1 : Reg) (rm : BitVec 3) (s : State) : Result :=
  withRM (.fcvtWUD rd rs1 rm) rm s fun m =>
    putInt32 rd (cvtToInt .double s.cfg.fp 32 false m (s.patD 1 rs1)) s

/-! ### Integer to floating point -/

/-- FCVT.S.L (R360, R361). -/
def execFcvtSL (rd rs1 : Reg) (rm : BitVec 3) (s : State) : Result :=
  rv64Only (.fcvtSL rd rs1 rm) s <|
    withRM (.fcvtSL rd rs1 rm) rm s fun m => putS rd (cvtFromInt .single s.tiny m (s.readX rs1).toInt) s

/-- FCVT.S.LU (R360, R362). -/
def execFcvtSLU (rd rs1 : Reg) (rm : BitVec 3) (s : State) : Result :=
  rv64Only (.fcvtSLU rd rs1 rm) s <|
    withRM (.fcvtSLU rd rs1 rm) rm s fun m => putS rd (cvtFromInt .single s.tiny m (s.readX rs1).toNat) s

/-- FCVT.S.W (R360, R363). -/
def execFcvtSW (rd rs1 : Reg) (rm : BitVec 3) (s : State) : Result :=
  withRM (.fcvtSW rd rs1 rm) rm s fun m => putS rd (cvtFromInt .single s.tiny m (s.readW rs1).toInt) s

/-- FCVT.S.WU (R360, R364). -/
def execFcvtSWU (rd rs1 : Reg) (rm : BitVec 3) (s : State) : Result :=
  withRM (.fcvtSWU rd rs1 rm) rm s fun m => putS rd (cvtFromInt .single s.tiny m (s.readW rs1).toNat) s

/-- FCVT.D.L (R360, R365). -/
def execFcvtDL (rd rs1 : Reg) (rm : BitVec 3) (s : State) : Result :=
  rv64Only (.fcvtDL rd rs1 rm) s <|
    withRM (.fcvtDL rd rs1 rm) rm s fun m => putD rd (cvtFromInt .double s.tiny m (s.readX rs1).toInt) s

/-- FCVT.D.LU (R360, R366). -/
def execFcvtDLU (rd rs1 : Reg) (rm : BitVec 3) (s : State) : Result :=
  rv64Only (.fcvtDLU rd rs1 rm) s <|
    withRM (.fcvtDLU rd rs1 rm) rm s fun m => putD rd (cvtFromInt .double s.tiny m (s.readX rs1).toNat) s

/-- FCVT.D.W (R360, R367). -/
def execFcvtDW (rd rs1 : Reg) (rm : BitVec 3) (s : State) : Result :=
  withRM (.fcvtDW rd rs1 rm) rm s fun m => putD rd (cvtFromInt .double s.tiny m (s.readW rs1).toInt) s

/-- FCVT.D.WU (R360, R368). -/
def execFcvtDWU (rd rs1 : Reg) (rm : BitVec 3) (s : State) : Result :=
  withRM (.fcvtDWU rd rs1 rm) rm s fun m => putD rd (cvtFromInt .double s.tiny m (s.readW rs1).toNat) s

/-! ### Between the formats -/

/-- FCVT.S.D (R369). -/
def execFcvtSD (rd rs1 : Reg) (rm : BitVec 3) (s : State) : Result :=
  withRM (.fcvtSD rd rs1 rm) rm s fun m => putS rd (cvtSofD s.cfg.fp m (s.patD 1 rs1)) s

/-- FCVT.D.S (R370). -/
def execFcvtDS (rd rs1 : Reg) (rm : BitVec 3) (s : State) : Result :=
  withRM (.fcvtDS rd rs1 rm) rm s fun _ => putD rd (cvtDofS s.cfg.fp (s.patS 1 rs1)) s

/-! ### Sign injection, on bit patterns: no flag, no NaN made quiet (R371) -/

/-- A single result of sign injection. -/
def injectS (rd rs1 rs2 : Reg) (sign : Bool → Bool → Bool) (s : State) : Result :=
  let a := s.patS 1 rs1
  putF rd (.s ((withSign .single (sign (signField .single a) (signField .single (s.patS 2 rs2))) a).setWidth 32)) s

/-- A double result of sign injection. -/
def injectD (rd rs1 rs2 : Reg) (sign : Bool → Bool → Bool) (s : State) : Result :=
  let a := s.patD 1 rs1
  putF rd (.d (withSign .double (sign (signField .double a) (signField .double (s.patD 2 rs2))) a)) s

/-- FSGNJ.S (R372). -/
def execFsgnjS (rd rs1 rs2 : Reg) (s : State) : Result := injectS rd rs1 rs2 (fun _ b => b) s

/-- FSGNJN.S (R373). -/
def execFsgnjnS (rd rs1 rs2 : Reg) (s : State) : Result := injectS rd rs1 rs2 (fun _ b => !b) s

/-- FSGNJX.S (R374). -/
def execFsgnjxS (rd rs1 rs2 : Reg) (s : State) : Result := injectS rd rs1 rs2 (fun a b => a ^^ b) s

/-- FSGNJ.D (R375). -/
def execFsgnjD (rd rs1 rs2 : Reg) (s : State) : Result := injectD rd rs1 rs2 (fun _ b => b) s

/-- FSGNJN.D (R376). -/
def execFsgnjnD (rd rs1 rs2 : Reg) (s : State) : Result := injectD rd rs1 rs2 (fun _ b => !b) s

/-- FSGNJX.D (R377). -/
def execFsgnjxD (rd rs1 rs2 : Reg) (s : State) : Result := injectD rd rs1 rs2 (fun a b => a ^^ b) s

/-! ### Moves between the register files, bit patterns unchanged (R378) -/

/-- MFTX.S, from the `rs2` field (R379). -/
def execMftxS (rd rs2 : Reg) (s : State) : Result := putX rd (sext s.cfg.xlen (s.readS 2 rs2)) s

/-- MFTX.D, from the `rs2` field (R380). -/
def execMftxD (rd rs2 : Reg) (s : State) : Result := rv64Only (.mftxD rd rs2) s (putX rd (s.readD 2 rs2) s)

/-- MXTF.S (R381). -/
def execMxtfS (rd rs1 : Reg) (s : State) : Result := putF rd (.s (s.readW rs1)) s

/-- MXTF.D (R382). -/
def execMxtfD (rd rs1 : Reg) (s : State) : Result := rv64Only (.mxtfD rd rs1) s (putF rd (.d (s.readX rs1)) s)

/-! ### Comparisons (R383) -/

/-- FEQ.S (R384). -/
def execFeqS (rd rs1 rs2 : Reg) (s : State) : Result :=
  let a := unpack .single (s.patS 1 rs1)
  let b := unpack .single (s.patS 2 rs2)
  putXFlags rd (ofBool (a.eqv b))
    (compareFlags .single s.cfg.fp.cmpFlags.feq (s.patS 1 rs1) (s.patS 2 rs2)) s

/-- FLT.S (R385). -/
def execFltS (rd rs1 rs2 : Reg) (s : State) : Result :=
  let a := unpack .single (s.patS 1 rs1)
  let b := unpack .single (s.patS 2 rs2)
  putXFlags rd (ofBool (a.lt b))
    (compareFlags .single s.cfg.fp.cmpFlags.flt (s.patS 1 rs1) (s.patS 2 rs2)) s

/-- FLE.S (R386). -/
def execFleS (rd rs1 rs2 : Reg) (s : State) : Result :=
  let a := unpack .single (s.patS 1 rs1)
  let b := unpack .single (s.patS 2 rs2)
  putXFlags rd (ofBool (a.lt b || a.eqv b))
    (compareFlags .single s.cfg.fp.cmpFlags.fle (s.patS 1 rs1) (s.patS 2 rs2)) s

/-- FEQ.D (R387). -/
def execFeqD (rd rs1 rs2 : Reg) (s : State) : Result :=
  let a := unpack .double (s.patD 1 rs1)
  let b := unpack .double (s.patD 2 rs2)
  putXFlags rd (ofBool (a.eqv b))
    (compareFlags .double s.cfg.fp.cmpFlags.feq (s.patD 1 rs1) (s.patD 2 rs2)) s

/-- FLT.D (R388). -/
def execFltD (rd rs1 rs2 : Reg) (s : State) : Result :=
  let a := unpack .double (s.patD 1 rs1)
  let b := unpack .double (s.patD 2 rs2)
  putXFlags rd (ofBool (a.lt b))
    (compareFlags .double s.cfg.fp.cmpFlags.flt (s.patD 1 rs1) (s.patD 2 rs2)) s

/-- FLE.D (R389). -/
def execFleD (rd rs1 rs2 : Reg) (s : State) : Result :=
  let a := unpack .double (s.patD 1 rs1)
  let b := unpack .double (s.patD 2 rs2)
  putXFlags rd (ofBool (a.lt b || a.eqv b))
    (compareFlags .double s.cfg.fp.cmpFlags.fle (s.patD 1 rs1) (s.patD 2 rs2)) s

/-! ### `fsr` (R390) -/

/-- MFFSR (R392). -/
def execMffsr (rd : Reg) (s : State) : Result := putX rd (zext s.cfg.xlen s.readFsr) s

/-- MTFSR, which swaps: the old value to `rd`, and no check of the mode written (R393). -/
def execMtfsr (rd rs1 : Reg) (s : State) : Result :=
  putX rd (zext s.cfg.xlen s.readFsr) (s.writeFsr (s.readW rs1))

end Sys2Proof.Machine
end

