-- ==== Sys2Proof/Machine/Integer.lean ====
section
/-! DEFINITION. Integer computation without multiply and divide (spec/42_integer_computational.md).  No instruction of the
family traps on its operands (R180). -/

namespace Sys2Proof.Machine

/-- The result of a W instruction, sign-extended (R181). -/
def putW (rd : Reg) (r : BitVec 32) (s : State) : Result := putX rd (sext s.cfg.xlen r) s

/-- The shift amount of SLLI, SRLI and SRAI is in range: bit 5 is 0 on RV32 (R189). -/
def checkShamt (i : Instr) (shamt : BitVec 6) (s : State) (k : Result) : Result :=
  if s.cfg.xlen = .rv32 ∧ shamt.getLsbD 5 = true then illegal i s else k

/-- Left shift of an XPRLEN-bit value (R190, R205). -/
def shiftLeft (xl : Xlen) (v : XWord) (n : Nat) : XWord := trunc xl (v <<< n)

/-- Logical right shift of an XPRLEN-bit value (R191, R206). -/
def shiftRight (xl : Xlen) (v : XWord) (n : Nat) : XWord := trunc xl v >>> n

/-- Arithmetic right shift of an XPRLEN-bit value, floor division of the signed value (R192, R207). -/
def shiftRightArith (xl : Xlen) (v : XWord) (n : Nat) : XWord := ofInt xl (signed xl v >>> n)

/-! ### Register-immediate -/

/-- ADDI (R182). -/
def execAddi (rd rs1 : Reg) (imm12 : BitVec 12) (s : State) : Result :=
  putX rd (trunc s.cfg.xlen (s.readX rs1 + immI s.cfg.xlen imm12)) s

/-- SLTI (R183). -/
def execSlti (rd rs1 : Reg) (imm12 : BitVec 12) (s : State) : Result :=
  putX rd (ofBool (decide (signed s.cfg.xlen (s.readX rs1) < signed s.cfg.xlen (immI s.cfg.xlen imm12)))) s

/-- SLTIU (R184). -/
def execSltiu (rd rs1 : Reg) (imm12 : BitVec 12) (s : State) : Result :=
  putX rd (ofBool (decide (unsigned s.cfg.xlen (s.readX rs1) < unsigned s.cfg.xlen (immI s.cfg.xlen imm12)))) s

/-- XORI (R187). -/
def execXori (rd rs1 : Reg) (imm12 : BitVec 12) (s : State) : Result := putX rd (s.readX rs1 ^^^ immI s.cfg.xlen imm12) s

/-- ORI (R186). -/
def execOri (rd rs1 : Reg) (imm12 : BitVec 12) (s : State) : Result := putX rd (s.readX rs1 ||| immI s.cfg.xlen imm12) s

/-- ANDI (R185). -/
def execAndi (rd rs1 : Reg) (imm12 : BitVec 12) (s : State) : Result := putX rd (s.readX rs1 &&& immI s.cfg.xlen imm12) s

/-- SLLI (R190). -/
def execSlli (rd rs1 : Reg) (shamt : BitVec 6) (s : State) : Result :=
  checkShamt (.slli rd rs1 shamt) shamt s (putX rd (shiftLeft s.cfg.xlen (s.readX rs1) shamt.toNat) s)

/-- SRLI (R191). -/
def execSrli (rd rs1 : Reg) (shamt : BitVec 6) (s : State) : Result :=
  checkShamt (.srli rd rs1 shamt) shamt s (putX rd (shiftRight s.cfg.xlen (s.readX rs1) shamt.toNat) s)

/-- SRAI (R192). -/
def execSrai (rd rs1 : Reg) (shamt : BitVec 6) (s : State) : Result :=
  checkShamt (.srai rd rs1 shamt) shamt s (putX rd (shiftRightArith s.cfg.xlen (s.readX rs1) shamt.toNat) s)

/-- LUI (R196). -/
def execLui (rd : Reg) (imm20 : BitVec 20) (s : State) : Result := putX rd (sext s.cfg.xlen (immU imm20)) s

/-! ### Register-register -/

/-- ADD (R198). -/
def execAdd (rd rs1 rs2 : Reg) (s : State) : Result := putX rd (trunc s.cfg.xlen (s.readX rs1 + s.readX rs2)) s

/-- SUB (R199). -/
def execSub (rd rs1 rs2 : Reg) (s : State) : Result := putX rd (trunc s.cfg.xlen (s.readX rs1 - s.readX rs2)) s

/-- SLL (R205). -/
def execSll (rd rs1 rs2 : Reg) (s : State) : Result :=
  putX rd (shiftLeft s.cfg.xlen (s.readX rs1) (shiftAmount s.cfg.xlen (s.readX rs2))) s

/-- SLT (R200). -/
def execSlt (rd rs1 rs2 : Reg) (s : State) : Result :=
  putX rd (ofBool (decide (signed s.cfg.xlen (s.readX rs1) < signed s.cfg.xlen (s.readX rs2)))) s

/-- SLTU (R201). -/
def execSltu (rd rs1 rs2 : Reg) (s : State) : Result :=
  putX rd (ofBool (decide (unsigned s.cfg.xlen (s.readX rs1) < unsigned s.cfg.xlen (s.readX rs2)))) s

/-- XOR (R204). -/
def execXor (rd rs1 rs2 : Reg) (s : State) : Result := putX rd (s.readX rs1 ^^^ s.readX rs2) s

/-- SRL (R206). -/
def execSrl (rd rs1 rs2 : Reg) (s : State) : Result :=
  putX rd (shiftRight s.cfg.xlen (s.readX rs1) (shiftAmount s.cfg.xlen (s.readX rs2))) s

/-- SRA (R207). -/
def execSra (rd rs1 rs2 : Reg) (s : State) : Result :=
  putX rd (shiftRightArith s.cfg.xlen (s.readX rs1) (shiftAmount s.cfg.xlen (s.readX rs2))) s

/-- OR (R203). -/
def execOr (rd rs1 rs2 : Reg) (s : State) : Result := putX rd (s.readX rs1 ||| s.readX rs2) s

/-- AND (R202). -/
def execAnd (rd rs1 rs2 : Reg) (s : State) : Result := putX rd (s.readX rs1 &&& s.readX rs2) s

/-! ### 32-bit forms of RV64 (R181) -/

/-- ADDIW (R188). -/
def execAddiw (rd rs1 : Reg) (imm12 : BitVec 12) (s : State) : Result :=
  rv64Only (.addiw rd rs1 imm12) s (putW rd (s.readW rs1 + immI32 imm12) s)

/-- SLLIW (R193). -/
def execSlliw (rd rs1 : Reg) (shamt : BitVec 5) (s : State) : Result :=
  rv64Only (.slliw rd rs1 shamt) s (putW rd (s.readW rs1 <<< shamt.toNat) s)

/-- SRLIW (R194). -/
def execSrliw (rd rs1 : Reg) (shamt : BitVec 5) (s : State) : Result :=
  rv64Only (.srliw rd rs1 shamt) s (putW rd (s.readW rs1 >>> shamt.toNat) s)

/-- SRAIW (R195). -/
def execSraiw (rd rs1 : Reg) (shamt : BitVec 5) (s : State) : Result :=
  rv64Only (.sraiw rd rs1 shamt) s (putW rd ((s.readW rs1).sshiftRight shamt.toNat) s)

/-- ADDW (R208). -/
def execAddw (rd rs1 rs2 : Reg) (s : State) : Result :=
  rv64Only (.addw rd rs1 rs2) s (putW rd (s.readW rs1 + s.readW rs2) s)

/-- SUBW (R209). -/
def execSubw (rd rs1 rs2 : Reg) (s : State) : Result :=
  rv64Only (.subw rd rs1 rs2) s (putW rd (s.readW rs1 - s.readW rs2) s)

/-- SLLW (R210). -/
def execSllw (rd rs1 rs2 : Reg) (s : State) : Result :=
  rv64Only (.sllw rd rs1 rs2) s (putW rd (s.readW rs1 <<< shiftAmountW (s.readX rs2)) s)

/-- SRLW (R211). -/
def execSrlw (rd rs1 rs2 : Reg) (s : State) : Result :=
  rv64Only (.srlw rd rs1 rs2) s (putW rd (s.readW rs1 >>> shiftAmountW (s.readX rs2)) s)

/-- SRAW (R212). -/
def execSraw (rd rs1 rs2 : Reg) (s : State) : Result :=
  rv64Only (.sraw rd rs1 rs2) s (putW rd ((s.readW rs1).sshiftRight (shiftAmountW (s.readX rs2))) s)

end Sys2Proof.Machine
end

