-- ==== Sys2Proof/Machine/LoadStore.lean ====
section
/-! DEFINITION. Loads and stores of both register files (spec/40_load_store.md).  Any byte address is allowed (R57); the
access checks and the byte order are in the shared operations. -/

namespace Sys2Proof.Machine

/-- A load of `w` bits into an x register, sign-extended (R121, R141). -/
def loadSigned (w : Nat) (rd rs1 : Reg) (imm12 : BitVec 12) (s : State) : Result :=
  loadThen (s.address rs1 imm12) (w / 8) s fun v => putX rd (sext s.cfg.xlen (v.setWidth w)) s

/-- A load of `w` bits into an x register, zero-extended (R121, R141). -/
def loadUnsigned (w : Nat) (rd rs1 : Reg) (imm12 : BitVec 12) (s : State) : Result :=
  loadThen (s.address rs1 imm12) (w / 8) s fun v => putX rd (zext s.cfg.xlen (v.setWidth w)) s

/-- A store of the low `n` bytes of a value (R120, R142). -/
def storeValue (n : Nat) (rs1 : Reg) (imm12 : BitVec 12) (v : BitVec 64) (s : State) : Result :=
  storeDone (s.address rs1 imm12) n v s

/-- LB (R123). -/
def execLb (rd rs1 : Reg) (imm12 : BitVec 12) (s : State) : Result := loadSigned 8 rd rs1 imm12 s

/-- LH (R124). -/
def execLh (rd rs1 : Reg) (imm12 : BitVec 12) (s : State) : Result := loadSigned 16 rd rs1 imm12 s

/-- LW (R125). -/
def execLw (rd rs1 : Reg) (imm12 : BitVec 12) (s : State) : Result := loadSigned 32 rd rs1 imm12 s

/-- LD (R126). -/
def execLd (rd rs1 : Reg) (imm12 : BitVec 12) (s : State) : Result :=
  rv64Only (.ld rd rs1 imm12) s (loadUnsigned 64 rd rs1 imm12 s)

/-- LBU (R127). -/
def execLbu (rd rs1 : Reg) (imm12 : BitVec 12) (s : State) : Result := loadUnsigned 8 rd rs1 imm12 s

/-- LHU (R128). -/
def execLhu (rd rs1 : Reg) (imm12 : BitVec 12) (s : State) : Result := loadUnsigned 16 rd rs1 imm12 s

/-- LWU (R129). -/
def execLwu (rd rs1 : Reg) (imm12 : BitVec 12) (s : State) : Result :=
  rv64Only (.lwu rd rs1 imm12) s (loadUnsigned 32 rd rs1 imm12 s)

/-- SB (R130). -/
def execSb (rs1 rs2 : Reg) (imm12 : BitVec 12) (s : State) : Result := storeValue 1 rs1 imm12 (s.readX rs2) s

/-- SH (R131). -/
def execSh (rs1 rs2 : Reg) (imm12 : BitVec 12) (s : State) : Result := storeValue 2 rs1 imm12 (s.readX rs2) s

/-- SW (R132). -/
def execSw (rs1 rs2 : Reg) (imm12 : BitVec 12) (s : State) : Result := storeValue 4 rs1 imm12 (s.readX rs2) s

/-- SD (R133). -/
def execSd (rs1 rs2 : Reg) (imm12 : BitVec 12) (s : State) : Result :=
  rv64Only (.sd rs1 rs2 imm12) s (storeValue 8 rs1 imm12 (s.readX rs2) s)

/-- FLW (R134). -/
def execFlw (rd rs1 : Reg) (imm12 : BitVec 12) (s : State) : Result :=
  loadThen (s.address rs1 imm12) 4 s fun v => putF rd (.s (v.setWidth 32)) s

/-- FLD (R135). -/
def execFld (rd rs1 : Reg) (imm12 : BitVec 12) (s : State) : Result :=
  loadThen (s.address rs1 imm12) 8 s fun v => putF rd (.d v) s

/-- FSW (R136). -/
def execFsw (rs1 rs2 : Reg) (imm12 : BitVec 12) (s : State) : Result :=
  storeValue 4 rs1 imm12 ((s.readS 2 rs2).setWidth 64) s

/-- FSD (R137). -/
def execFsd (rs1 rs2 : Reg) (imm12 : BitVec 12) (s : State) : Result := storeValue 8 rs1 imm12 (s.readD 2 rs2) s

end Sys2Proof.Machine
end

