-- ==== Sys2Proof/Machine/MulDiv.lean ====
section
/-! DEFINITION. Integer multiply and divide (spec/43_muldiv.md).  Products are taken exactly and the wanted half is narrowed
at the end; division by zero and signed overflow give the values of R236, and nothing traps. -/

namespace Sys2Proof.Machine

/-- The upper half of an exact product, `floor(p / 2^XPRLEN) mod 2^XPRLEN` (R232). -/
def upperHalf (xl : Xlen) (p : Int) : XWord := ofInt xl (p / 2 ^ xl.bits)

/-- The quotient of signed division on `w`-bit values: truncated; -1 for a zero divisor; the dividend on overflow (R236).
DEDUCED for the general case: the spec's rounding direction is its own decision (log entry 22). -/
def divSigned (w : Nat) (a b : Int) : Int :=
  if b = 0 then -1 else if a = -2 ^ (w - 1) ∧ b = -1 then a else a.tdiv b

/-- The remainder of signed division on `w`-bit values: the sign of the dividend; the dividend for a zero divisor; 0 on
overflow (R236). -/
def remSigned (w : Nat) (a b : Int) : Int :=
  if b = 0 then a else if a = -2 ^ (w - 1) ∧ b = -1 then 0 else a.tmod b

/-- The quotient of unsigned division on `w`-bit values: all bits set for a zero divisor (R236). -/
def divUnsigned (w : Nat) (a b : Nat) : Nat := if b = 0 then 2 ^ w - 1 else a / b

/-- The remainder of unsigned division: the dividend for a zero divisor (R236). -/
def remUnsigned (a b : Nat) : Nat := if b = 0 then a else a % b

/-- MUL (R231). -/
def execMul (rd rs1 rs2 : Reg) (s : State) : Result := putX rd (trunc s.cfg.xlen (s.readX rs1 * s.readX rs2)) s

/-- MULH (R232). -/
def execMulh (rd rs1 rs2 : Reg) (s : State) : Result :=
  putX rd (upperHalf s.cfg.xlen (signed s.cfg.xlen (s.readX rs1) * signed s.cfg.xlen (s.readX rs2))) s

/-- MULHSU: `rs1` signed, `rs2` unsigned (R233). -/
def execMulhsu (rd rs1 rs2 : Reg) (s : State) : Result :=
  putX rd (upperHalf s.cfg.xlen (signed s.cfg.xlen (s.readX rs1) * unsigned s.cfg.xlen (s.readX rs2))) s

/-- MULHU (R234). -/
def execMulhu (rd rs1 rs2 : Reg) (s : State) : Result :=
  putX rd (upperHalf s.cfg.xlen ((unsigned s.cfg.xlen (s.readX rs1) * unsigned s.cfg.xlen (s.readX rs2) : Nat) : Int)) s

/-- DIV (R237). -/
def execDiv (rd rs1 rs2 : Reg) (s : State) : Result :=
  putX rd (ofInt s.cfg.xlen
    (divSigned s.cfg.xlen.bits (signed s.cfg.xlen (s.readX rs1)) (signed s.cfg.xlen (s.readX rs2)))) s

/-- DIVU (R238). -/
def execDivu (rd rs1 rs2 : Reg) (s : State) : Result :=
  putX rd (ofInt s.cfg.xlen
    (divUnsigned s.cfg.xlen.bits (unsigned s.cfg.xlen (s.readX rs1)) (unsigned s.cfg.xlen (s.readX rs2)) : Nat)) s

/-- REM (R239). -/
def execRem (rd rs1 rs2 : Reg) (s : State) : Result :=
  putX rd (ofInt s.cfg.xlen
    (remSigned s.cfg.xlen.bits (signed s.cfg.xlen (s.readX rs1)) (signed s.cfg.xlen (s.readX rs2)))) s

/-- REMU (R240). -/
def execRemu (rd rs1 rs2 : Reg) (s : State) : Result :=
  putX rd (ofInt s.cfg.xlen
    (remUnsigned (unsigned s.cfg.xlen (s.readX rs1)) (unsigned s.cfg.xlen (s.readX rs2)) : Nat)) s

/-- MULW (R235). -/
def execMulw (rd rs1 rs2 : Reg) (s : State) : Result :=
  rv64Only (.mulw rd rs1 rs2) s (putW rd (s.readW rs1 * s.readW rs2) s)

/-- DIVW (R241). -/
def execDivw (rd rs1 rs2 : Reg) (s : State) : Result :=
  rv64Only (.divw rd rs1 rs2) s
    (putW rd (BitVec.ofInt 32 (divSigned 32 (s.readW rs1).toInt (s.readW rs2).toInt)) s)

/-- DIVUW (R242). -/
def execDivuw (rd rs1 rs2 : Reg) (s : State) : Result :=
  rv64Only (.divuw rd rs1 rs2) s
    (putW rd (BitVec.ofNat 32 (divUnsigned 32 (s.readW rs1).toNat (s.readW rs2).toNat)) s)

/-- REMW (R243). -/
def execRemw (rd rs1 rs2 : Reg) (s : State) : Result :=
  rv64Only (.remw rd rs1 rs2) s
    (putW rd (BitVec.ofInt 32 (remSigned 32 (s.readW rs1).toInt (s.readW rs2).toInt)) s)

/-- REMUW (R244). -/
def execRemuw (rd rs1 rs2 : Reg) (s : State) : Result :=
  rv64Only (.remuw rd rs1 rs2) s
    (putW rd (BitVec.ofNat 32 (remUnsigned (s.readW rs1).toNat (s.readW rs2).toNat)) s)

end Sys2Proof.Machine
end

