-- ==== Sys2Proof/Machine/System.lean ====
section
/-! DEFINITION. SYSCALL, BREAK and the counter reads (spec/48_system.md). -/

namespace Sys2Proof.Machine

/-- A counter as a register receives it, modulo `2^XPRLEN` (R433 to R435). -/
def counterValue (xl : Xlen) (n : Nat) : XWord := trunc xl (BitVec.ofNat 64 n)

/-- SYSCALL (R431, R474). -/
def execSyscall (s : State) : Result := raise .syscall s

/-- BREAK (R432, R475). -/
def execBreak (s : State) : Result := raise .breakpoint s

/-- RDCYCLE (R433). -/
def execRdcycle (rd : Reg) (s : State) : Result := putX rd (counterValue s.cfg.xlen s.cycle) s

/-- RDTIME (R434). -/
def execRdtime (rd : Reg) (s : State) : Result := putX rd (counterValue s.cfg.xlen s.time) s

/-- RDINSTRET: the count before this instruction (R435). -/
def execRdinstret (rd : Reg) (s : State) : Result := putX rd (counterValue s.cfg.xlen s.instret) s

end Sys2Proof.Machine
end

