-- ==== Sys2Proof/Machine/Step.lean ====
section
/-! DEFINITION. One step of the hardware thread (spec/00_scope.md R14): fetch, decode, execute; then time passes.

A stopped thread has no step.  Everything here is a call of an operation of `Ops.lean`, `Decode.lean` or `exec`. -/

namespace Sys2Proof.Machine

/-- The instruction of a step, before time passes (R91, R479). -/
def stepInstr (s : State) : Host.Outcome State Fault Refusal :=
  match s.fetch with
  | .error e => raise e s
  | .ok w =>
    match decode w with
    | .error _ => raise (.illegalInstruction w) s
    | .ok i => exec i s

/-- One step. -/
def step (s : State) : Host.Outcome State Fault Refusal :=
  if s.halted then .fault .halted else afterTick (stepInstr s)

/-- The state with an instruction, numbered as spec/opcode_table.json numbers its bits, where the next step fetches. -/
def State.withFetchWord (s : State) (nbits w : Nat) : State := s.placeWord (BitVec.ofNat 32 (w % 2 ^ nbits))

end Sys2Proof.Machine
end

