-- ==== Sys2Proof/WellFormed.lean ====
section
/-! DEFINITION. Which instructions are legal for a variant, as far as the instruction word alone decides (R91 steps 3 and 4):
the RV64-only rows, the shift amounts of RV32, and the static rounding modes.  What an instruction does when a check
fails is in its meaning; that an ill-formed instruction raises IllegalInstruction is an obligation.

The dynamic rounding mode depends on `fsr` and is no matter of form. -/

namespace Sys2Proof

/-- The rows marked `RV64 only` (R91 step 3). -/
def Instr.rv64Only : Instr → Bool
  | .ld .. | .lwu .. | .sd .. | .amoaddD .. | .amoswapD .. | .amoandD .. | .amoorD .. | .amominD .. 
  | .amomaxD .. | .amominuD .. | .amomaxuD .. | .addiw .. | .slliw .. | .srliw .. | .sraiw .. | .addw .. 
  | .subw .. | .sllw .. | .srlw .. | .sraw .. | .mulw .. | .divw .. | .divuw .. | .remw .. | .remuw .. 
  | .fcvtSL .. | .fcvtSLU .. | .fcvtDL .. | .fcvtDLU .. | .mxtfD .. | .fcvtLS .. | .fcvtLUS .. | .fcvtLD .. 
  | .fcvtLUD .. | .mftxD .. => true
  | .j .. | .jal .. | .beq .. | .bne .. | .blt .. | .bge .. | .bltu .. | .bgeu .. | .jalrC .. | .jalrR .. 
  | .jalrJ .. | .rdnpc .. | .lb .. | .lh .. | .lw .. | .lbu .. | .lhu .. | .sb .. | .sh .. | .sw .. 
  | .amoaddW .. | .amoswapW .. | .amoandW .. | .amoorW .. | .amominW .. | .amomaxW .. | .amominuW .. 
  | .amomaxuW .. | .addi .. | .slti .. | .sltiu .. | .xori .. | .ori .. | .andi .. | .slli .. | .srli .. 
  | .srai .. | .add .. | .sub .. | .sll .. | .slt .. | .sltu .. | .xor .. | .srl .. | .sra .. | .or .. | .and .. 
  | .mul .. | .mulh .. | .mulhsu .. | .mulhu .. | .div .. | .divu .. | .rem .. | .remu .. | .lui .. | .flw .. 
  | .fld .. | .fsw .. | .fsd .. | .faddS .. | .fsubS .. | .fmulS .. | .fdivS .. | .fsqrtS .. | .fminS .. 
  | .fmaxS .. | .faddD .. | .fsubD .. | .fmulD .. | .fdivD .. | .fsqrtD .. | .fminD .. | .fmaxD .. | .fmaddS .. 
  | .fmsubS .. | .fnmsubS .. | .fnmaddS .. | .fmaddD .. | .fmsubD .. | .fnmsubD .. | .fnmaddD .. | .fsgnjS .. 
  | .fsgnjnS .. | .fsgnjxS .. | .fsgnjD .. | .fsgnjnD .. | .fsgnjxD .. | .fcvtSD .. | .fcvtDS .. | .fcvtSW .. 
  | .fcvtSWU .. | .fcvtDW .. | .fcvtDWU .. | .mxtfS .. | .mtfsr .. | .fcvtWS .. | .fcvtWUS .. | .fcvtWD .. 
  | .fcvtWUD .. | .mftxS .. | .mffsr .. | .feqS .. | .fltS .. | .fleS .. | .feqD .. | .fltD .. | .fleD .. 
  | .fenceI .. | .fence .. | .syscall | .brk | .rdcycle .. | .rdtime .. | .rdinstret .. => false

/-- The 6-bit shift amount of SLLI, SRLI and SRAI, whose bit 5 must be 0 on RV32 (R89, R189). -/
def Instr.shamt6 : Instr → Option (BitVec 6)
  | .slli _ _ shamt | .srli _ _ shamt | .srai _ _ shamt => some shamt
  | .j .. | .jal .. | .beq .. | .bne .. | .blt .. | .bge .. | .bltu .. | .bgeu .. | .jalrC .. | .jalrR .. 
  | .jalrJ .. | .rdnpc .. | .lb .. | .lh .. | .lw .. | .ld .. | .lbu .. | .lhu .. | .lwu .. | .sb .. | .sh .. 
  | .sw .. | .sd .. | .amoaddW .. | .amoswapW .. | .amoandW .. | .amoorW .. | .amominW .. | .amomaxW .. 
  | .amominuW .. | .amomaxuW .. | .amoaddD .. | .amoswapD .. | .amoandD .. | .amoorD .. | .amominD .. 
  | .amomaxD .. | .amominuD .. | .amomaxuD .. | .addi .. | .slti .. | .sltiu .. | .xori .. | .ori .. | .andi .. 
  | .add .. | .sub .. | .sll .. | .slt .. | .sltu .. | .xor .. | .srl .. | .sra .. | .or .. | .and .. | .mul .. 
  | .mulh .. | .mulhsu .. | .mulhu .. | .div .. | .divu .. | .rem .. | .remu .. | .lui .. | .addiw .. 
  | .slliw .. | .srliw .. | .sraiw .. | .addw .. | .subw .. | .sllw .. | .srlw .. | .sraw .. | .mulw .. 
  | .divw .. | .divuw .. | .remw .. | .remuw .. | .flw .. | .fld .. | .fsw .. | .fsd .. | .faddS .. | .fsubS .. 
  | .fmulS .. | .fdivS .. | .fsqrtS .. | .fminS .. | .fmaxS .. | .faddD .. | .fsubD .. | .fmulD .. | .fdivD .. 
  | .fsqrtD .. | .fminD .. | .fmaxD .. | .fmaddS .. | .fmsubS .. | .fnmsubS .. | .fnmaddS .. | .fmaddD .. 
  | .fmsubD .. | .fnmsubD .. | .fnmaddD .. | .fsgnjS .. | .fsgnjnS .. | .fsgnjxS .. | .fsgnjD .. | .fsgnjnD .. 
  | .fsgnjxD .. | .fcvtSD .. | .fcvtDS .. | .fcvtSL .. | .fcvtSLU .. | .fcvtSW .. | .fcvtSWU .. | .fcvtDL .. 
  | .fcvtDLU .. | .fcvtDW .. | .fcvtDWU .. | .mxtfS .. | .mxtfD .. | .mtfsr .. | .fcvtLS .. | .fcvtLUS .. 
  | .fcvtWS .. | .fcvtWUS .. | .fcvtLD .. | .fcvtLUD .. | .fcvtWD .. | .fcvtWUD .. | .mftxS .. | .mftxD .. 
  | .mffsr .. | .feqS .. | .fltS .. | .fleS .. | .feqD .. | .fltD .. | .fleD .. | .fenceI .. | .fence .. 
  | .syscall | .brk | .rdcycle .. | .rdtime .. | .rdinstret .. => none

/-- The `rm` field of the rows that have a variable one (R293). -/
def Instr.rmField : Instr → Option (BitVec 3)
  | .faddS _ _ _ rm | .fsubS _ _ _ rm | .fmulS _ _ _ rm | .fdivS _ _ _ rm | .fsqrtS _ _ rm | .faddD _ _ _ rm 
  | .fsubD _ _ _ rm | .fmulD _ _ _ rm | .fdivD _ _ _ rm | .fsqrtD _ _ rm | .fmaddS _ _ _ _ rm 
  | .fmsubS _ _ _ _ rm | .fnmsubS _ _ _ _ rm | .fnmaddS _ _ _ _ rm | .fmaddD _ _ _ _ rm | .fmsubD _ _ _ _ rm 
  | .fnmsubD _ _ _ _ rm | .fnmaddD _ _ _ _ rm | .fcvtSD _ _ rm | .fcvtDS _ _ rm | .fcvtSL _ _ rm 
  | .fcvtSLU _ _ rm | .fcvtSW _ _ rm | .fcvtSWU _ _ rm | .fcvtDL _ _ rm | .fcvtDLU _ _ rm | .fcvtDW _ _ rm 
  | .fcvtDWU _ _ rm | .fcvtLS _ _ rm | .fcvtLUS _ _ rm | .fcvtWS _ _ rm | .fcvtWUS _ _ rm | .fcvtLD _ _ rm 
  | .fcvtLUD _ _ rm | .fcvtWD _ _ rm | .fcvtWUD _ _ rm => some rm
  | .j .. | .jal .. | .beq .. | .bne .. | .blt .. | .bge .. | .bltu .. | .bgeu .. | .jalrC .. | .jalrR .. 
  | .jalrJ .. | .rdnpc .. | .lb .. | .lh .. | .lw .. | .ld .. | .lbu .. | .lhu .. | .lwu .. | .sb .. | .sh .. 
  | .sw .. | .sd .. | .amoaddW .. | .amoswapW .. | .amoandW .. | .amoorW .. | .amominW .. | .amomaxW .. 
  | .amominuW .. | .amomaxuW .. | .amoaddD .. | .amoswapD .. | .amoandD .. | .amoorD .. | .amominD .. 
  | .amomaxD .. | .amominuD .. | .amomaxuD .. | .addi .. | .slti .. | .sltiu .. | .xori .. | .ori .. | .andi .. 
  | .slli .. | .srli .. | .srai .. | .add .. | .sub .. | .sll .. | .slt .. | .sltu .. | .xor .. | .srl .. 
  | .sra .. | .or .. | .and .. | .mul .. | .mulh .. | .mulhsu .. | .mulhu .. | .div .. | .divu .. | .rem .. 
  | .remu .. | .lui .. | .addiw .. | .slliw .. | .srliw .. | .sraiw .. | .addw .. | .subw .. | .sllw .. 
  | .srlw .. | .sraw .. | .mulw .. | .divw .. | .divuw .. | .remw .. | .remuw .. | .flw .. | .fld .. | .fsw .. 
  | .fsd .. | .fminS .. | .fmaxS .. | .fminD .. | .fmaxD .. | .fsgnjS .. | .fsgnjnS .. | .fsgnjxS .. 
  | .fsgnjD .. | .fsgnjnD .. | .fsgnjxD .. | .mxtfS .. | .mxtfD .. | .mtfsr .. | .mftxS .. | .mftxD .. 
  | .mffsr .. | .feqS .. | .fltS .. | .fleS .. | .feqD .. | .fltD .. | .fleD .. | .fenceI .. | .fence .. 
  | .syscall | .brk | .rdcycle .. | .rdtime .. | .rdinstret .. => none

/-- A static `rm` of 101 or 110 is invalid; 111 selects the dynamic mode (R90). -/
def rmFieldValid (rm : BitVec 3) : Bool := rm != 0b101#3 && rm != 0b110#3

/-- The variant provides the instruction (R91 step 3, first half). -/
def Instr.variantOk (xl : Xlen) (i : Instr) : Bool :=
  match xl with
  | .rv64 => true
  | .rv32 => !i.rv64Only

/-- The shift amount is in range for the variant (R189). -/
def Instr.shamtOk (xl : Xlen) (i : Instr) : Bool :=
  match xl with
  | .rv64 => true
  | .rv32 => i.shamt6.all fun shamt => !shamt.getLsbD 5

/-- The static rounding mode is valid (R293). -/
def Instr.rmOk (i : Instr) : Bool := i.rmField.all rmFieldValid

/-- The instruction is legal for the variant, whatever the state holds. -/
def Instr.wellFormed (xl : Xlen) (i : Instr) : Bool := i.variantOk xl && i.shamtOk xl && i.rmOk

end Sys2Proof
end

