-- ==== Sys2Proof/Safety.lean ====
section
/-! DEFINITION. The vocabulary of the claims: the invariant every step keeps, a step without a trap, what an instruction that
completes changes and leaves, and the numbers and bytes an operand stands for. -/

namespace Sys2Proof.Machine

/-! ### Invariant and traps -/

/-- A value fits in `XPRLEN` bits. -/
def fits (xl : Xlen) (v : XWord) : Bool := decide (v.toNat < 2 ^ xl.bits)

/-- The well-formed states: registers and pc hold XPRLEN bits, `x[0]` holds 0, the bits of `fsr` that do not exist are 0, the
memory and the fetch view have their canonical form, and their addresses exist (R21, R25, R38, R42); on RV64 the clocks have
not overflowed (R39, R40). -/
structure State.Inv (s : State) : Prop where
  xFits : ∀ r : Fin 32, fits s.cfg.xlen s.x[r] = true
  x0    : s.x[0] = 0
  pcFits : fits s.cfg.xlen s.pc = true
  fsrBits : s.fsr &&& fsrMask = s.fsr
  memWf : Memory.wf s.mem = true
  memAddr : s.mem.all (fun c => decide (c.1 < 2 ^ s.cfg.xlen.bits)) = true
  staleRising : Memory.rising s.stale = true
  staleAddr : s.stale.all (fun c => decide (c.1 < 2 ^ s.cfg.xlen.bits)) = true
  clocks : s.cfg.xlen = .rv64 → s.cycle < 2 ^ 64 ∧ s.time < 2 ^ 64

/-- A step from `s` to `t` took no trap: a trap hands a record to the environment (R480). -/
def State.TrapFree (s t : State) : Prop := t.traps = s.traps

/-! ### Operands as numbers -/

/-- `2^XPRLEN`. -/
def State.modulus (s : State) : Nat := 2 ^ s.cfg.xlen.bits

/-- `unsigned(x[r])`. -/
def State.ux (s : State) (r : Reg) : Nat := (s.readX r).toNat

/-- `signed(x[r])`, by the value of the top bit. -/
def State.sx (s : State) (r : Reg) : Int := if 2 * s.ux r < s.modulus then s.ux r else (s.ux r : Int) - s.modulus

/-- The 0 or 1 a comparison writes. -/
def bit (p : Prop) [Decidable p] : XWord := if p then 1 else 0

/-! ### Bytes of an access -/

/-- The address of byte `k` (least significant first) of an access of `n` bytes at `a` (R51, R52). -/
def State.byteAddr (s : State) (a : XWord) (n k : Nat) : Nat :=
  ((trunc s.cfg.xlen a).toNat + (match s.cfg.endian with | .little => k | .big => n - 1 - k)) % s.modulus

/-- Every byte of the access permits every kind named (R62). -/
def State.Permitted (s : State) (kinds : List AccessKind) (a : XWord) (n : Nat) : Prop :=
  ∀ b ∈ s.span a n, ∀ k ∈ kinds, Perm.allows (MemMap.perm s.cfg.memMap b) k = true

/-- The low `n` bytes of `v` are those in memory at `a` (R52). -/
def State.HoldsBytes (s : State) (a : XWord) (n : Nat) (v : BitVec 64) : Prop :=
  ∀ k < n, v.extractLsb' (8 * k) 8 = Memory.read s.mem (s.byteAddr a n k)

/-- Bits `n` and up of an XPRLEN-bit value repeat bit `n - 1`. -/
def SignExtendedFrom (xl : Xlen) (n : Nat) (v : XWord) : Prop :=
  (∀ j, n ≤ j → j < xl.bits → v.getLsbD j = v.getLsbD (n - 1)) ∧ ∀ j, xl.bits ≤ j → v.getLsbD j = false

/-- Bits `n` and up are 0. -/
def ZeroExtendedFrom (n : Nat) (v : XWord) : Prop := ∀ j, n ≤ j → v.getLsbD j = false

/-! ### Frames: what an instruction that completes leaves as it was -/

/-- What no instruction changes when it completes: the parameters, the clocks, and everything of a trap; and it counts as
one retired instruction. -/
structure Kept (s t : State) : Prop where
  cfg     : t.cfg = s.cfg
  handler : t.handler = s.handler
  cycle   : t.cycle = s.cycle
  time    : t.time = s.time
  halted  : t.halted = s.halted
  traps   : t.traps = s.traps
  draws   : t.draws = s.draws
  instret : t.instret = s.instret + 1

/-- Memory and the fetch view are unchanged. -/
structure KeptMem (s t : State) : Prop where
  mem   : t.mem = s.mem
  stale : t.stale = s.stale

/-- The x registers but `rd` are unchanged, and `x[rd]` reads `v`; `x[0]` reads 0 as ever. -/
structure NewX (rd : Reg) (v : XWord) (s t : State) : Prop where
  others : ∀ r, r ≠ rd → t.readX r = s.readX r
  dest   : rd ≠ 0 → t.readX rd = v
  zero   : t.readX 0 = 0

/-- The f registers but `rd` are unchanged, and `f[rd]` holds `v`. -/
structure NewF (rd : Reg) (v : FReg) (s t : State) : Prop where
  others : ∀ r, r ≠ rd → t.readF r = s.readF r
  dest   : t.readF rd = v

/-- Only `x[rd]` and the pc change. -/
structure WritesX (rd : Reg) (v : XWord) (s t : State) : Prop where
  kept : Kept s t
  mem  : KeptMem s t
  x    : NewX rd v s t
  f    : t.f = s.f
  fsr  : t.fsr = s.fsr

/-- Only `f[rd]` and the pc change. -/
structure WritesF (rd : Reg) (v : FReg) (s t : State) : Prop where
  kept : Kept s t
  mem  : KeptMem s t
  x    : t.x = s.x
  f    : NewF rd v s t
  fsr  : t.fsr = s.fsr

/-- Only `x[rd]`, the flags `fl` of `fsr` and the pc change (R294). -/
structure WritesXFlags (rd : Reg) (v : XWord) (fl : FFlags) (s t : State) : Prop where
  kept : Kept s t
  mem  : KeptMem s t
  x    : NewX rd v s t
  f    : t.f = s.f
  fsr  : t.readFsr = s.readFsr ||| fl.bits.setWidth 32

/-- Only `f[rd]`, the flags `fl` of `fsr` and the pc change (R294). -/
structure WritesFFlags (rd : Reg) (v : FReg) (fl : FFlags) (s t : State) : Prop where
  kept : Kept s t
  mem  : KeptMem s t
  x    : t.x = s.x
  f    : NewF rd v s t
  fsr  : t.readFsr = s.readFsr ||| fl.bits.setWidth 32

/-- Only the pc changes. -/
structure WritesNothing (s t : State) : Prop where
  kept : Kept s t
  mem  : KeptMem s t
  x    : t.x = s.x
  f    : t.f = s.f
  fsr  : t.fsr = s.fsr

/-- The `n` bytes at `a` become the low bytes of `v`; every other byte of memory reads as before. -/
structure NewBytes (a : XWord) (n : Nat) (v : BitVec 64) (s t : State) : Prop where
  bytes  : ∀ k < n, Memory.read t.mem (s.byteAddr a n k) = v.extractLsb' (8 * k) 8
  others : ∀ b, b ∉ s.span a n → Memory.read t.mem b = Memory.read s.mem b

/-- Only the stored bytes (and the record of what the fetch view held there) and the pc change. -/
structure StoresBytes (a : XWord) (n : Nat) (v : BitVec 64) (s t : State) : Prop where
  kept : Kept s t
  mem  : NewBytes a n v s t
  x    : t.x = s.x
  f    : t.f = s.f
  fsr  : t.fsr = s.fsr

/-- An instruction completes, its one result being a value of `x[rd]` with the property `P`, and the next one follows it. -/
def CompletesX (i : Instr) (rd : Reg) (s : State) (P : XWord → Prop) : Prop :=
  ∃ t v, exec i s = .next t ∧ WritesX rd v s t ∧ t.pc = s.pcPlus4 ∧ P v

/-- A store completes with the `n` low bytes of `v` at `a`, and the next instruction follows it. -/
def CompletesStore (i : Instr) (a : XWord) (n : Nat) (v : BitVec 64) (s : State) : Prop :=
  ∃ t, exec i s = .next t ∧ StoresBytes a n v s t ∧ t.pc = s.pcPlus4

/-- An instruction completes, its one result being `f[rd]`, and the next one follows it. -/
def CompletesF (i : Instr) (rd : Reg) (v : FReg) (s : State) : Prop :=
  ∃ t, exec i s = .next t ∧ WritesF rd v s t ∧ t.pc = s.pcPlus4

/-- A floating-point instruction completes with `f[rd]` and the flags it raises, and the next one follows it. -/
def CompletesFFlags (i : Instr) (rd : Reg) (v : FReg) (fl : FFlags) (s : State) : Prop :=
  ∃ t, exec i s = .next t ∧ WritesFFlags rd v fl s t ∧ t.pc = s.pcPlus4

/-- A floating-point instruction completes with `x[rd]` and the flags it raises, and the next one follows it. -/
def CompletesXFlags (i : Instr) (rd : Reg) (v : XWord) (fl : FFlags) (s : State) : Prop :=
  ∃ t, exec i s = .next t ∧ WritesXFlags rd v fl s t ∧ t.pc = s.pcPlus4

/-- A control transfer completes, writing nothing but the pc. -/
def CompletesJump (i : Instr) (target : XWord) (s : State) : Prop :=
  ∃ t, exec i s = .next t ∧ WritesNothing s t ∧ t.pc = target

/-- An AMO completes: the old value, extended, in `x[rd]`, and the new value in memory (R151). -/
def CompletesAmo (i : Instr) (rd : Reg) (a : XWord) (n : Nat) (old : XWord) (new : BitVec 64) (s : State) : Prop :=
  ∃ t, exec i s = .next t ∧ Kept s t ∧ NewX rd old s t ∧ NewBytes a n new s t ∧ t.f = s.f ∧ t.fsr = s.fsr ∧
    t.pc = s.pcPlus4

/-! ### Floating-point values -/

/-- The value of a finite operand as a rational number. -/
def FVal.toRat : FVal → Option ℚ
  | .fin neg m e => some ((if neg then -1 else 1) * m * (2 : ℚ) ^ e)
  | _ => none

/-- The value of an operand that is no NaN, infinities being the extremes. -/
def FVal.extended : FVal → Option (WithBot (WithTop ℚ))
  | .nan => none
  | .inf true => some ⊥
  | .inf false => some ((⊤ : WithTop ℚ) : WithBot (WithTop ℚ))
  | .fin neg m e => some (((if neg then -1 else 1) * m * (2 : ℚ) ^ e : ℚ) : WithTop ℚ)

/-- The pattern uses no bit above its format. -/
def Fmt.IsPattern (f : Fmt) (b : Pattern) : Prop := b.toNat < 2 ^ f.width

/-- The pattern stands for the finite number `x`, its sign bit being `neg`. -/
def Fmt.Represents (f : Fmt) (b : Pattern) (neg : Bool) (x : ℝ) : Prop :=
  f.IsPattern b ∧ signField f b = neg ∧ ∃ y : ℚ, (unpack f b).toRat = some y ∧ (y : ℝ) = x

/-- The pattern is the infinity with that sign. -/
def Fmt.RepresentsInf (f : Fmt) (b : Pattern) (neg : Bool) : Prop := f.IsPattern b ∧ unpack f b = .inf neg

/-- The result is a zero with that sign, and no flag is raised. -/
def GivesZero (f : Fmt) (r : FResult) (neg : Bool) : Prop := f.Represents r.bits neg 0 ∧ r.flags = FFlags.none

/-- The result is an infinity with that sign, and no flag is raised. -/
def GivesInf (f : Fmt) (r : FResult) (neg : Bool) : Prop := f.RepresentsInf r.bits neg ∧ r.flags = FFlags.none

/-- A magnitude stands for the real number `x`. -/
def Mag.Is (v : Mag) (x : ℝ) : Prop := 0 ≤ x ∧ (if v.root then x ^ 2 else x) = v.num / v.den

/-! ### Rounding of real numbers, as R295 states it (general knowledge by the spec's own mark, log entry 21) -/

/-- The integer `k` is `y` rounded in direction `m` (R35, R295 b, R351). -/
def RoundsToInt (m : RMode) (y : ℝ) (k : ℤ) : Prop :=
  match m with
  | .rne => |y - k| ≤ 1 / 2 ∧ (|y - k| = 1 / 2 → k % 2 = 0)
  | .rtz => |(k : ℝ)| ≤ |y| ∧ |y - k| < 1
  | .rdn => k ≤ y ∧ y < k + 1
  | .rup => y ≤ k ∧ k < y + 1
  | .rmm => |y - k| ≤ 1 / 2 ∧ (|y - k| = 1 / 2 → |y| < |(k : ℝ)|)

/-- The largest finite number of a format. -/
def Fmt.maxFinite (f : Fmt) : ℚ := (2 - 2 ^ (-(f.fracBits : ℤ))) * 2 ^ f.emax

/-- What an overflow delivers in each direction (R295 c). -/
def IsOverflowResult (f : Fmt) (m : RMode) (neg : Bool) (b : Pattern) : Prop :=
  let largest := f.Represents b neg (if neg then -f.maxFinite else f.maxFinite : ℚ)
  match m with
  | .rne | .rmm => f.RepresentsInf b neg
  | .rtz => largest
  | .rdn => if neg then f.RepresentsInf b neg else largest
  | .rup => if neg then largest else f.RepresentsInf b neg

/-- `r` is `Round(f, m, v)` of a real number `v` that is not zero (R295 b to e).  `w` is `v` rounded to the precision of the
format with unbounded exponent. -/
def IsRound (f : Fmt) (tiny : Tininess) (m : RMode) (v : ℝ) (r : FResult) : Prop :=
  ∃ (e n : ℤ) (w : ℝ) (neg : Bool),
    (2 : ℝ) ^ e ≤ |v| ∧ |v| < 2 ^ (e + 1) ∧ RoundsToInt m (v / 2 ^ (e - f.fracBits)) n ∧ w = n * 2 ^ (e - f.fracBits) ∧
    (neg = true ↔ v < 0) ∧
    (let isTiny : Prop := match tiny with
      | .beforeRounding => |v| < 2 ^ f.emin
      | .afterRounding => |w| < 2 ^ f.emin
    ((f.maxFinite : ℝ) < |w| →
      IsOverflowResult f m neg r.bits ∧ r.flags = { FFlags.none with of := true, nx := true }) ∧
    (|w| ≤ f.maxFinite → isTiny → ∃ (k : ℤ) (inexact : Bool),
      RoundsToInt m (v / 2 ^ (f.emin - f.fracBits)) k ∧ f.Represents r.bits neg (k * 2 ^ (f.emin - f.fracBits)) ∧
      (inexact = true ↔ k * 2 ^ (f.emin - f.fracBits) ≠ v) ∧
      r.flags = { FFlags.none with uf := inexact, nx := inexact }) ∧
    (|w| ≤ f.maxFinite → ¬isTiny → ∃ inexact : Bool,
      f.Represents r.bits neg w ∧ (inexact = true ↔ w ≠ v) ∧ r.flags = { FFlags.none with nx := inexact }))

end Sys2Proof.Machine
end

