-- ==== Sys2Proof/Certificates/Slice0/Obligations.lean ====
section
/-! DEFINITION. The statements for the provers, each from the rules of spec/ that its docstring names. -/

open Sys2Proof Sys2Proof.Machine

/-! ### Encoding -/

/-- R82, R91, R94 to R109: decoding the word of an instruction gives the instruction, for every instruction and every value
of its fields. -/
def Obligations.DecodeOfEncode : Prop := ∀ i : Instr, decode (encode i) = .ok i

/-- R91: a word that decodes is the word of its instruction, so no two words share a meaning and no bit is dropped. -/
def Obligations.EncodeOfDecode : Prop := ∀ (w : IWord) (i : Instr), decode w = .ok i → encode i = w

/-- R80, R81, R91, R111: a fetched word that is no instruction's encoding raises IllegalInstruction with the word; and a word
whose low bits are not 11, or whose bits 4:2 are 111, is no instruction's encoding. -/
def Obligations.UnassignedWordsIllegal : Prop :=
  (∀ (s : State) (w : IWord), s.halted = false → s.fetch = .ok w → (∀ i, encode i ≠ w) →
    step s = afterTick (raise (.illegalInstruction w) s)) ∧
  ∀ w : IWord, (w.extractLsb' 0 2 ≠ 0b11#2 ∨ w.extractLsb' 2 3 = 0b111#3) → ∀ i, encode i ≠ w

/-- Words written out from the encodings of R94 to R109, at least one for each of the 21 major opcodes that R93 assigns, decode
to their instructions.  The opcodes of J and JAL are those of Table 2 of the source alone (R93), and the `funct3` of FENCE.I is
read from a damaged cell of Table 6 (R108): log entry 25, PRESUMED, for the three. -/
def Obligations.DecodeOfWrittenWords : Prop :=
  decode 0x08800503#32 = .ok (.lw 1 2 1) ∧
  decode 0x08801107#32 = .ok (.flw 1 2 4) ∧
  decode 0x00C401A7#32 = .ok (.fsd 3 2 0) ∧
  decode 0x08BFFC1B#32 = .ok (.addiw 1 2 (-1)) ∧
  decode 0x0000086F#32 = .ok (.jal 16) ∧
  decode 0x08864047#32 = .ok (.fmsubS 1 2 3 4 0) ∧
  decode 0x088640CB#32 = .ok (.fnmsubD 1 2 3 4 0) ∧
  decode 0x0886404F#32 = .ok (.fnmaddS 1 2 3 4 0) ∧
  decode 0x00000467#32 = .ok (.j 8) ∧
  decode 0xF881F0E3#32 = .ok (.bne 2 0 (-4)) ∧
  decode 0x0940406B#32 = .ok (.jalrC 1 5 16) ∧
  decode 0x08BFE413#32 = .ok (.addi 1 2 (-7)) ∧
  decode 0x08811293#32 = .ok (.srai 1 2 4) ∧
  decode 0x0891A2B7#32 = .ok (.lui 1 0x12345) ∧
  decode 0x08870033#32 = .ok (.sub 1 2 3) ∧
  decode 0x0886063B#32 = .ok (.divw 1 2 3) ∧
  decode 0x394C012B#32 = .ok (.amoaddW 7 5 6) ∧
  decode 0x00C408A3#32 = .ok (.sh 3 2 2) ∧
  decode 0x08863053#32 = .ok (.fdivS 1 2 3 0) ∧
  decode 0x088640C3#32 = .ok (.fmaddD 1 2 3 4 0) ∧
  decode 0x0807C053#32 = .ok (.mftxS 1 3) ∧
  decode 0x0881F053#32 = .ok (.mtfsr 1 2) ∧
  decode 0x000000AF#32 = .ok (.fenceI 0 0 0) ∧
  decode 0x38000A77#32 = .ok (.rdinstret 7)

/-! ### The step -/

/-- R14, R55, R91: when the four bytes at an aligned, executable pc, none of them stored to since the last FENCE.I, decode
to an instruction, the step is that instruction's meaning, after which time passes. -/
def Obligations.StepRunsDecodedInstruction : Prop :=
  ∀ (s : State) (i : Instr) (b0 b1 b2 b3 : Byte),
    s.halted = false → (trunc s.cfg.xlen s.pc).toNat % 4 = 0 → s.Permitted [.fetch] s.pc 4 →
    (∀ a ∈ s.span s.pc 4, ∀ c ∈ s.stale, c.1 ≠ a) →
    (s.span s.pc 4).map (Memory.read s.mem) = [b0, b1, b2, b3] →
    decodeBytes s.cfg.endian [b0, b1, b2, b3] = .ok (i, []) →
    step s = afterTick (exec i s)

/-- R39, R40, R433, R434: what a step adds around the instruction: the clocks do not go back, on RV64 they do not overflow, and
nothing else that the spec gives the machine is touched.  That they move in every step is the model's reading (log entry 10,
DEDUCED), and `draws` is the model's own count of steps (log entry 11, DESIGN CHOICE). -/
def Obligations.TimePassesWithEveryStep : Prop :=
  ∀ s t : State, stepInstr s = .next t → s.halted = false →
    ∃ u, step s = .next u ∧ t.cycle ≤ u.cycle ∧ t.time ≤ u.time ∧ u.draws = t.draws + 1 ∧
      (t.cfg.xlen = .rv64 → (t.cycle < 2 ^ 64 → u.cycle < 2 ^ 64) ∧ (t.time < 2 ^ 64 → u.time < 2 ^ 64)) ∧
      u = { t with cycle := u.cycle, time := u.time, draws := u.draws }

/-- R56, R471: a pc that is not four-byte aligned raises InstructionAddressMisaligned, and no instruction is executed. -/
def Obligations.MisalignedFetchTraps : Prop :=
  ∀ s : State, s.halted = false → (trunc s.cfg.xlen s.pc).toNat % 4 ≠ 0 →
    step s = afterTick (raise .instructionAddressMisaligned s)

/-- R62, R476, R479: an aligned fetch of a byte that does not permit it raises AccessFault with the lowest such address. -/
def Obligations.DeniedFetchTraps : Prop :=
  ∀ (s : State) (a : Nat), s.halted = false → (trunc s.cfg.xlen s.pc).toNat % 4 = 0 →
    a ∈ s.span s.pc 4 → (MemMap.perm s.cfg.memMap a).exec = false →
    (∀ b ∈ s.span s.pc 4, (MemMap.perm s.cfg.memMap b).exec = false → a ≤ b) →
    step s = afterTick (raise (.accessFault a .fetch) s)

/-- R480, R529: where `TrapHandler` answers the record with Stop, as its default always does, the thread halts at the trap: the
record is handed over, nothing architectural has changed, and there is no further step (the fault `halted`, log entry 13). -/
def Obligations.StopAtTrap : Prop :=
  ∀ (e : Exc) (s : State),
    (s.handler = TrapHandler.default → s.outcome ⟨e, s.readPc⟩ = .stop) ∧
    (s.outcome ⟨e, s.readPc⟩ = .stop →
      ∃ t, raise e s = .next t ∧ t = { s with traps := ⟨e, s.readPc⟩ :: s.traps, halted := true } ∧
        step t = .fault .halted)

/-- R480, R482, R483: where `TrapHandler` resumes, the thread goes on at the pc the environment gives, with the registers,
`fsr` and memory it wrote (the last write of a place standing) and every other one as it was; the record of the trap was
handed over first, and the answer does not depend on earlier traps.  What a resumption may write is the model's choice: the
writes as a list (log entry 12), the retired count it adds (log entry 29), addresses taken modulo `2^XPRLEN` and the clocks
left alone (log entry 30), all DESIGN CHOICE. -/
def Obligations.ResumeFromTrap : Prop :=
  ∀ (e : Exc) (s : State) (r : Resumption), s.outcome ⟨e, s.readPc⟩ = .resume r →
    (∀ earlier, State.outcome { s with traps := earlier } ⟨e, s.readPc⟩ = .resume r) ∧
    ∃ t, raise e s = .next t ∧ t.traps = ⟨e, s.readPc⟩ :: s.traps ∧ t.handler = s.handler ∧ t.halted = s.halted ∧
      t.cfg = s.cfg ∧ t.pc = trunc s.cfg.xlen r.pc ∧ t.instret = s.instret + r.retired ∧
      (∀ reg, reg ≠ 0 → t.readX reg =
        (match r.x.reverse.find? (fun p => p.1 == reg) with | some p => trunc s.cfg.xlen p.2 | none => s.readX reg)) ∧
      (∀ reg, t.readF reg =
        (match r.f.reverse.find? (fun p => p.1 == reg) with | some p => p.2 | none => s.readF reg)) ∧
      t.readFsr = (match r.fsr with | some v => v &&& fsrMask | none => s.readFsr) ∧
      (∀ a, Memory.read t.mem a =
        (match r.mem.reverse.find? (fun c => c.1 % s.modulus == a) with | some c => c.2 | none => Memory.read s.mem a)) ∧
      t.cycle = s.cycle ∧ t.time = s.time

/-! ### Invariants and rules of the whole machine -/

/-- R21, R25, R38, R39, R40, R42: every step keeps the invariant, also one whose trap is resumed.  That its memory is a list in
one canonical form is the model's representation (log entry 8), and that 64 bits hold an RV32 value too (log entry 23). -/
def Obligations.StepKeepsInvariant : Prop := ∀ s t : State, s.Inv → step s = .next t → t.Inv

/-- The state after reset has the invariant, and its `fsr`, fetch view and trap state are those of R523, R526 and R480; the
other values are the model's (log entries 1 to 8). -/
def Obligations.ResetHasInvariant : Prop :=
  State.reset.Inv ∧ State.reset.fsr = 0 ∧ State.reset.stale = [] ∧ State.reset.halted = false ∧
    State.reset.traps = [] ∧ State.reset.handler = TrapHandler.default

/-- R8, R50, R116, R527: no step changes `XPRLEN`, `ENDIAN`, `TrapHandler` or any other parameter of the run. -/
def Obligations.StepKeepsConfig : Prop := ∀ s t : State, step s = .next t → t.cfg = s.cfg ∧ t.handler = s.handler

/-- R435, R481: a step without a trap counts one instruction; a step that traps and stops counts none. -/
def Obligations.InstretCountsCompleted : Prop :=
  ∀ s t : State, step s = .next t →
    (s.TrapFree t → t.instret = s.instret + 1) ∧ (t.halted = true → t.instret = s.instret)

/-- R36, R294: an instruction other than MTFSR that completes clears no accrued flag and leaves `fsr.RM` as it is. -/
def Obligations.FlagsOnlyAccrue : Prop :=
  ∀ (i : Instr) (s t : State), (∀ rd rs1, i ≠ .mtfsr rd rs1) → exec i s = .next t → s.TrapFree t →
    s.fsrFlags &&& t.fsrFlags = s.fsrFlags ∧ t.fsrRM = s.fsrRM

/-- R120, R150: only a store, an AMO or the environment changes memory. -/
def Obligations.OnlyStoresChangeMemory : Prop :=
  ∀ (i : Instr) (s t : State), exec i s = .next t → s.TrapFree t → t.mem ≠ s.mem →
    (∃ rs1 rs2 imm, i = .sb rs1 rs2 imm ∨ i = .sh rs1 rs2 imm ∨ i = .sw rs1 rs2 imm ∨ i = .sd rs1 rs2 imm ∨
      i = .fsw rs1 rs2 imm ∨ i = .fsd rs1 rs2 imm) ∨
    (encode i).extractLsb' 0 7 = 0b0101011#7

/-- R91, R472: an instruction that is ill-formed for the variant (RV64-only on RV32, a shift amount out of range, a static
rounding mode of 101 or 110) raises IllegalInstruction with its word. -/
def Obligations.IllFormedIllegal : Prop :=
  ∀ (i : Instr) (s : State), i.wellFormed s.cfg.xlen = false → exec i s = raise (.illegalInstruction (encode i)) s

/-- R292, R293: an instruction with a rounding-mode field of 111 raises IllegalInstruction while `fsr.RM` is 101, 110 or
111, before anything else. -/
def Obligations.InvalidDynamicModeIllegal : Prop :=
  ∀ (i : Instr) (s : State), i.rmField = some 0b111#3 → 5 ≤ s.fsrRM.toNat →
    exec i s = raise (.illegalInstruction (encode i)) s

/-- R487, R491: with every address permitted, a legal instruction completes without a trap, but for SYSCALL, BREAK, an AMO
at a misaligned address, and a dynamic rounding mode that `fsr` does not hold. -/
def Obligations.LegalInstructionsComplete : Prop :=
  ∀ (i : Instr) (s : State), i.wellFormed s.cfg.xlen = true →
    (∀ a, MemMap.perm s.cfg.memMap a = Perm.all) →
    (i.rmField = some 0b111#3 → s.fsrRM.toNat < 5) →
    i ≠ .syscall → i ≠ .brk →
    ((encode i).extractLsb' 0 7 = 0b0101011#7 →
      s.ux ((encode i).extractLsb' 22 5) % 2 ^ ((encode i).extractLsb' 7 3).toNat = 0) →
    ∃ t, exec i s = .next t ∧ s.TrapFree t ∧ t.instret = s.instret + 1

/-! ### Control transfer -/

/-- R261, R262: J and JAL go to the pc plus twice the signed offset, modulo `2^XPRLEN`; JAL also writes pc + 4 to `x1`, and
nothing else is written. -/
def Obligations.JumpsGoToOffset : Prop :=
  ∀ (off : BitVec 25) (s : State), ∃ target : XWord,
    (target.toNat : Int) = ((trunc s.cfg.xlen s.pc).toNat + 2 * off.toInt) % s.modulus ∧
    CompletesJump (.j off) target s ∧
    ∃ t, exec (.jal off) s = .next t ∧ WritesX 1 s.pcPlus4 s t ∧ t.pc = target

/-- R263 to R267: the three forms of JALR go to `x[rs1]` plus the signed immediate, unmasked, read before pc + 4 is written
to `x[rd]`, and they do the same; RDNPC writes pc + 4, modulo `2^XPRLEN`, and goes on there. -/
def Obligations.JalrAndRdnpc : Prop :=
  ∀ (rd rs1 : Reg) (imm : BitVec 12) (s : State),
    (∃ t, exec (.jalrC rd rs1 imm) s = .next t ∧ WritesX rd s.pcPlus4 s t ∧
      (t.pc.toNat : Int) = (s.ux rs1 + imm.toInt) % s.modulus ∧
      exec (.jalrR rd rs1 imm) s = .next t ∧ exec (.jalrJ rd rs1 imm) s = .next t) ∧
    CompletesX (.rdnpc rd) rd s fun v => v.toNat = ((trunc s.cfg.xlen s.pc).toNat + 4) % s.modulus

/-- R268 to R274: a branch goes to the pc plus twice the signed immediate where its comparison holds, else to pc + 4, and
writes nothing. -/
def Obligations.BranchesCompare : Prop :=
  ∀ (rs1 rs2 : Reg) (imm : BitVec 12) (s : State), ∃ target : XWord,
    (target.toNat : Int) = ((trunc s.cfg.xlen s.pc).toNat + 2 * imm.toInt) % s.modulus ∧
    CompletesJump (.beq rs1 rs2 imm) (if s.ux rs1 = s.ux rs2 then target else s.pcPlus4) s ∧
    CompletesJump (.bne rs1 rs2 imm) (if s.ux rs1 = s.ux rs2 then s.pcPlus4 else target) s ∧
    CompletesJump (.blt rs1 rs2 imm) (if s.sx rs1 < s.sx rs2 then target else s.pcPlus4) s ∧
    CompletesJump (.bge rs1 rs2 imm) (if s.sx rs1 < s.sx rs2 then s.pcPlus4 else target) s ∧
    CompletesJump (.bltu rs1 rs2 imm) (if s.ux rs1 < s.ux rs2 then target else s.pcPlus4) s ∧
    CompletesJump (.bgeu rs1 rs2 imm) (if s.ux rs1 < s.ux rs2 then s.pcPlus4 else target) s

/-! ### Integer computation -/

/-- R182 to R184, R196, R198 to R201: additions and subtractions wrap modulo `2^XPRLEN`, the comparisons write 1 or 0, and
LUI writes its immediate, as a signed number, times 4096. -/
def Obligations.AddCompareAndLuiResults : Prop :=
  ∀ (rd rs1 rs2 : Reg) (imm : BitVec 12) (imm20 : BitVec 20) (s : State),
    CompletesX (.lui rd imm20) rd s (fun v => (v.toNat : Int) = imm20.toInt * 4096 % s.modulus) ∧
    CompletesX (.addi rd rs1 imm) rd s (fun v => (v.toNat : Int) = (s.ux rs1 + imm.toInt) % s.modulus) ∧
    CompletesX (.slti rd rs1 imm) rd s (fun v => v = bit (s.sx rs1 < imm.toInt)) ∧
    CompletesX (.sltiu rd rs1 imm) rd s (fun v => v = bit ((s.ux rs1 : Int) < imm.toInt % s.modulus)) ∧
    CompletesX (.add rd rs1 rs2) rd s (fun v => v.toNat = (s.ux rs1 + s.ux rs2) % s.modulus) ∧
    CompletesX (.sub rd rs1 rs2) rd s (fun v => (v.toNat : Int) = ((s.ux rs1 : Int) - s.ux rs2) % s.modulus) ∧
    CompletesX (.slt rd rs1 rs2) rd s (fun v => v = bit (s.sx rs1 < s.sx rs2)) ∧
    CompletesX (.sltu rd rs1 rs2) rd s (fun v => v = bit (s.ux rs1 < s.ux rs2))

/-- R185 to R187, R202 to R204: the logical instructions, bit by bit, on all XPRLEN bits, the immediate sign-extended. -/
def Obligations.LogicalResults : Prop :=
  ∀ (rd rs1 rs2 : Reg) (imm : BitVec 12) (s : State),
    CompletesX (.xori rd rs1 imm) rd s (fun v => ∀ k, v.getLsbD k =
      (decide (k < s.cfg.xlen.bits) && ((s.readX rs1).getLsbD k ^^ imm.getLsbD (min k 11)))) ∧
    CompletesX (.ori rd rs1 imm) rd s (fun v => ∀ k, v.getLsbD k =
      (decide (k < s.cfg.xlen.bits) && ((s.readX rs1).getLsbD k || imm.getLsbD (min k 11)))) ∧
    CompletesX (.andi rd rs1 imm) rd s (fun v => ∀ k, v.getLsbD k =
      (decide (k < s.cfg.xlen.bits) && ((s.readX rs1).getLsbD k && imm.getLsbD (min k 11)))) ∧
    CompletesX (.xor rd rs1 rs2) rd s (fun v => ∀ k, v.getLsbD k =
      ((s.readX rs1).getLsbD k ^^ (s.readX rs2).getLsbD k)) ∧
    CompletesX (.or rd rs1 rs2) rd s (fun v => ∀ k, v.getLsbD k =
      ((s.readX rs1).getLsbD k || (s.readX rs2).getLsbD k)) ∧
    CompletesX (.and rd rs1 rs2) rd s (fun v => ∀ k, v.getLsbD k =
      ((s.readX rs1).getLsbD k && (s.readX rs2).getLsbD k))

/-- R189 to R192, R205 to R207: shifts as multiplication and floor division by a power of two; a constant amount is in range
for the variant, and a register amount is the low 5 or 6 bits of `x[rs2]`. -/
def Obligations.ShiftResults : Prop :=
  ∀ (rd rs1 rs2 : Reg) (shamt : BitVec 6) (s : State),
    (shamt.toNat < s.cfg.xlen.bits →
      CompletesX (.slli rd rs1 shamt) rd s (fun v => v.toNat = s.ux rs1 * 2 ^ shamt.toNat % s.modulus) ∧
      CompletesX (.srli rd rs1 shamt) rd s (fun v => v.toNat = s.ux rs1 / 2 ^ shamt.toNat) ∧
      CompletesX (.srai rd rs1 shamt) rd s (fun v => (v.toNat : Int) = s.sx rs1 / 2 ^ shamt.toNat % s.modulus)) ∧
    CompletesX (.sll rd rs1 rs2) rd s
      (fun v => v.toNat = s.ux rs1 * 2 ^ (s.ux rs2 % s.cfg.xlen.bits) % s.modulus) ∧
    CompletesX (.srl rd rs1 rs2) rd s (fun v => v.toNat = s.ux rs1 / 2 ^ (s.ux rs2 % s.cfg.xlen.bits)) ∧
    CompletesX (.sra rd rs1 rs2) rd s
      (fun v => (v.toNat : Int) = s.sx rs1 / 2 ^ (s.ux rs2 % s.cfg.xlen.bits) % s.modulus)

/-- R181, R188, R193 to R195, R208 to R212, R235: the W instructions on RV64 take the low 32 bits of their sources and
write a 32-bit result whose sign fills the upper half. -/
def Obligations.WordResults : Prop :=
  ∀ (rd rs1 rs2 : Reg) (imm : BitVec 12) (shamt : BitVec 5) (s : State), s.cfg.xlen = .rv64 →
    let a : Nat := s.ux rs1 % 2 ^ 32
    let b : Nat := s.ux rs2 % 2 ^ 32
    let sa : Int := if a < 2 ^ 31 then a else (a : Int) - 2 ^ 32
    let word : Int → XWord → Prop := fun n v => (v.toNat : Int) % 2 ^ 32 = n % 2 ^ 32 ∧ SignExtendedFrom .rv64 32 v
    CompletesX (.addiw rd rs1 imm) rd s (word (a + imm.toInt)) ∧
    CompletesX (.slliw rd rs1 shamt) rd s (word (a * 2 ^ shamt.toNat : Nat)) ∧
    CompletesX (.srliw rd rs1 shamt) rd s (word (a / 2 ^ shamt.toNat : Nat)) ∧
    CompletesX (.sraiw rd rs1 shamt) rd s (word (sa / 2 ^ shamt.toNat)) ∧
    CompletesX (.addw rd rs1 rs2) rd s (word (a + b : Nat)) ∧
    CompletesX (.subw rd rs1 rs2) rd s (word ((a : Int) - b)) ∧
    CompletesX (.sllw rd rs1 rs2) rd s (word (a * 2 ^ (b % 32) : Nat)) ∧
    CompletesX (.srlw rd rs1 rs2) rd s (word (a / 2 ^ (b % 32) : Nat)) ∧
    CompletesX (.sraw rd rs1 rs2) rd s (word (sa / 2 ^ (b % 32))) ∧
    CompletesX (.mulw rd rs1 rs2) rd s (word (a * b : Nat))

/-! ### Multiply and divide -/

/-- R231 to R234, R247: MUL writes the low half of the product, and MULH, MULHSU and MULHU the high half of the signed, the
signed by unsigned and the unsigned product. -/
def Obligations.ProductHalves : Prop :=
  ∀ (rd rs1 rs2 : Reg) (s : State),
    CompletesX (.mul rd rs1 rs2) rd s (fun v => v.toNat = s.ux rs1 * s.ux rs2 % s.modulus) ∧
    CompletesX (.mulh rd rs1 rs2) rd s
      (fun v => (v.toNat : Int) = s.sx rs1 * s.sx rs2 / s.modulus % s.modulus) ∧
    CompletesX (.mulhsu rd rs1 rs2) rd s
      (fun v => (v.toNat : Int) = s.sx rs1 * s.ux rs2 / s.modulus % s.modulus) ∧
    CompletesX (.mulhu rd rs1 rs2) rd s (fun v => v.toNat = s.ux rs1 * s.ux rs2 / s.modulus)

/-- R236, R237, R239, R247: signed division and remainder.  A zero divisor gives -1 and the dividend, overflow gives the
dividend and 0; otherwise dividend = divisor times quotient plus remainder, the remainder smaller than the divisor and of
the dividend's sign (the rounding direction is the spec's own decision, D19; log entry 22). -/
def Obligations.SignedDivision : Prop :=
  ∀ (rd rs1 rs2 : Reg) (s : State),
    let a := s.sx rs1
    let b := s.sx rs2
    let lowest : Int := -(s.modulus / 2 : Nat)
    ∃ q r : Int,
      CompletesX (.div rd rs1 rs2) rd s (fun v => (v.toNat : Int) = q % s.modulus) ∧
      CompletesX (.rem rd rs1 rs2) rd s (fun v => (v.toNat : Int) = r % s.modulus) ∧
      (b = 0 → q = -1 ∧ r = a) ∧
      (a = lowest ∧ b = -1 → q = a ∧ r = 0) ∧
      (b ≠ 0 → ¬(a = lowest ∧ b = -1) → a = b * q + r ∧ r.natAbs < b.natAbs ∧ 0 ≤ r * a)

/-- R236, R238, R240, R247: unsigned division and remainder; a zero divisor gives all ones and the dividend. -/
def Obligations.UnsignedDivision : Prop :=
  ∀ (rd rs1 rs2 : Reg) (s : State),
    encode (.divu rd rs1 rs2) = rd ++ rs1 ++ rs2 ++ 0b0000001#7 ++ 0b101#3 ++ 0b0110011#7 ∧
    encode (.remu rd rs1 rs2) = rd ++ rs1 ++ rs2 ++ 0b0000001#7 ++ 0b111#3 ++ 0b0110011#7 ∧
    ∃ q r : Nat,
      CompletesX (.divu rd rs1 rs2) rd s (fun v => v.toNat = q) ∧
      CompletesX (.remu rd rs1 rs2) rd s (fun v => v.toNat = r) ∧
      (s.ux rs2 = 0 → q = s.modulus - 1 ∧ r = s.ux rs1) ∧
      (s.ux rs2 ≠ 0 → s.ux rs1 = s.ux rs2 * q + r ∧ r < s.ux rs2)

/-- R241 to R244: the 32-bit divisions of RV64, on the low words, with the special cases of R236 for 32 bits, every result
sign-extended from bit 31. -/
def Obligations.WordDivision : Prop :=
  ∀ (rd rs1 rs2 : Reg) (s : State), s.cfg.xlen = .rv64 →
    let ua : Nat := s.ux rs1 % 2 ^ 32
    let ub : Nat := s.ux rs2 % 2 ^ 32
    let a : Int := if ua < 2 ^ 31 then ua else (ua : Int) - 2 ^ 32
    let b : Int := if ub < 2 ^ 31 then ub else (ub : Int) - 2 ^ 32
    let word : Int → XWord → Prop := fun n v => (v.toNat : Int) % 2 ^ 32 = n % 2 ^ 32 ∧ SignExtendedFrom .rv64 32 v
    ∃ (q r : Int) (uq ur : Nat),
      CompletesX (.divw rd rs1 rs2) rd s (word q) ∧
      CompletesX (.remw rd rs1 rs2) rd s (word r) ∧
      CompletesX (.divuw rd rs1 rs2) rd s (word uq) ∧
      CompletesX (.remuw rd rs1 rs2) rd s (word ur) ∧
      (b = 0 → q = -1 ∧ r = a) ∧ (a = -2 ^ 31 ∧ b = -1 → q = a ∧ r = 0) ∧
      (b ≠ 0 → ¬(a = -2 ^ 31 ∧ b = -1) → a = b * q + r ∧ r.natAbs < b.natAbs ∧ 0 ≤ r * a) ∧
      (ub = 0 → uq = 2 ^ 32 - 1 ∧ ur = ua) ∧ (ub ≠ 0 → ua = ub * uq + ur ∧ ur < ub)

/-! ### Loads and stores -/

/-- R120, R121, R123 to R129, R52: where the bytes may be read, an integer load writes them to `x[rd]` in the byte order of
the machine, sign- or zero-extended; LD and LWU on RV64. -/
def Obligations.IntegerLoadResults : Prop :=
  ∀ (rd rs1 : Reg) (imm : BitVec 12) (s : State) (a : XWord), a = s.address rs1 imm →
    (s.Permitted [.load] a 1 →
      CompletesX (.lb rd rs1 imm) rd s (fun v => s.HoldsBytes a 1 v ∧ SignExtendedFrom s.cfg.xlen 8 v) ∧
      CompletesX (.lbu rd rs1 imm) rd s (fun v => s.HoldsBytes a 1 v ∧ ZeroExtendedFrom 8 v)) ∧
    (s.Permitted [.load] a 2 →
      CompletesX (.lh rd rs1 imm) rd s (fun v => s.HoldsBytes a 2 v ∧ SignExtendedFrom s.cfg.xlen 16 v) ∧
      CompletesX (.lhu rd rs1 imm) rd s (fun v => s.HoldsBytes a 2 v ∧ ZeroExtendedFrom 16 v)) ∧
    (s.Permitted [.load] a 4 →
      CompletesX (.lw rd rs1 imm) rd s (fun v => s.HoldsBytes a 4 v ∧ SignExtendedFrom s.cfg.xlen 32 v) ∧
      (s.cfg.xlen = .rv64 →
        CompletesX (.lwu rd rs1 imm) rd s (fun v => s.HoldsBytes a 4 v ∧ ZeroExtendedFrom 32 v))) ∧
    (s.Permitted [.load] a 8 → s.cfg.xlen = .rv64 →
      CompletesX (.ld rd rs1 imm) rd s (fun v => s.HoldsBytes a 8 v))

/-- R120, R130 to R133, R53: where the bytes may be written, an integer store writes the low bytes of `x[rs2]` in the byte
order of the machine, and no other byte; SD on RV64. -/
def Obligations.IntegerStoreResults : Prop :=
  ∀ (rs1 rs2 : Reg) (imm : BitVec 12) (s : State) (a : XWord), a = s.address rs1 imm →
    (s.Permitted [.store] a 1 → CompletesStore (.sb rs1 rs2 imm) a 1 (s.readX rs2) s) ∧
    (s.Permitted [.store] a 2 → CompletesStore (.sh rs1 rs2 imm) a 2 (s.readX rs2) s) ∧
    (s.Permitted [.store] a 4 → CompletesStore (.sw rs1 rs2 imm) a 4 (s.readX rs2) s) ∧
    (s.Permitted [.store] a 8 → s.cfg.xlen = .rv64 → CompletesStore (.sd rs1 rs2 imm) a 8 (s.readX rs2) s)

/-- R134, R135, R143: FLW and FLD, on both variants, write the bit pattern in memory to `f[rd]`, and no flag. -/
def Obligations.FpLoadResults : Prop :=
  ∀ (rd rs1 : Reg) (imm : BitVec 12) (s : State) (a : XWord), a = s.address rs1 imm →
    (s.Permitted [.load] a 4 →
      ∃ v : BitVec 32, s.HoldsBytes a 4 (v.setWidth 64) ∧ CompletesF (.flw rd rs1 imm) rd (.s v) s) ∧
    (s.Permitted [.load] a 8 →
      ∃ v : BitVec 64, s.HoldsBytes a 8 v ∧ CompletesF (.fld rd rs1 imm) rd (.d v) s)

/-- R136, R137, R143: FSW of a register that holds a single and FSD of one that holds a double store its bit pattern, on both
variants, and no other byte; in the other view the stored pattern is a free value (U7). -/
def Obligations.FpStoreResults : Prop :=
  ∀ (rs1 rs2 : Reg) (imm : BitVec 12) (s : State) (a : XWord), a = s.address rs1 imm →
    (s.Permitted [.store] a 4 →
      (∃ w : BitVec 32, CompletesStore (.fsw rs1 rs2 imm) a 4 (w.setWidth 64) s) ∧
      ∀ v : BitVec 32, s.readF rs2 = .s v → CompletesStore (.fsw rs1 rs2 imm) a 4 (v.setWidth 64) s) ∧
    (s.Permitted [.store] a 8 →
      (∃ w : BitVec 64, CompletesStore (.fsd rs1 rs2 imm) a 8 w s) ∧
      ∀ v : BitVec 64, s.readF rs2 = .d v → CompletesStore (.fsd rs1 rs2 imm) a 8 v s)

/-- R122, R151, R152, R476: a load or store any byte of which is denied raises AccessFault with the lowest denied address,
whatever the other bytes permit, for the widths of 1, 2, 4 and 8 bytes, the 8-byte integer forms and LWU on RV64; and so does
an aligned AMO a byte of which may not be read or may not be written, always with the kind store, the .D forms on RV64.  That
the lowest address is the lowest number, also where the access wraps, is the model's reading (log entry 26, DEDUCED). -/
def Obligations.DeniedAccessTraps : Prop :=
  (∀ (r rs1 : Reg) (imm : BitVec 12) (s : State) (n b : Nat),
    b ∈ s.span (s.address rs1 imm) n →
    (let fault (kind : AccessKind) (i : Instr) : Prop :=
      Perm.allows (MemMap.perm s.cfg.memMap b) kind = false →
      (∀ c ∈ s.span (s.address rs1 imm) n, Perm.allows (MemMap.perm s.cfg.memMap c) kind = false → b ≤ c) →
      exec i s = raise (.accessFault b kind) s
    (n = 1 → fault .load (.lb r rs1 imm) ∧ fault .load (.lbu r rs1 imm) ∧ fault .store (.sb rs1 r imm)) ∧
    (n = 2 → fault .load (.lh r rs1 imm) ∧ fault .load (.lhu r rs1 imm) ∧ fault .store (.sh rs1 r imm)) ∧
    (n = 4 → fault .load (.lw r rs1 imm) ∧ fault .load (.flw r rs1 imm) ∧ fault .store (.sw rs1 r imm) ∧
      fault .store (.fsw rs1 r imm) ∧ (s.cfg.xlen = .rv64 → fault .load (.lwu r rs1 imm))) ∧
    (n = 8 → fault .load (.fld r rs1 imm) ∧ fault .store (.fsd rs1 r imm) ∧
      (s.cfg.xlen = .rv64 → fault .load (.ld r rs1 imm) ∧ fault .store (.sd rs1 r imm))))) ∧
  ∀ (rd rs1 rs2 : Reg) (s : State) (n b : Nat) (i : Instr),
    s.ux rs1 % n = 0 → b ∈ s.span (s.readX rs1) n →
    (let mayUse (c : Nat) : Bool := (MemMap.perm s.cfg.memMap c).read && (MemMap.perm s.cfg.memMap c).write
    mayUse b = false → (∀ c ∈ s.span (s.readX rs1) n, mayUse c = false → b ≤ c) →
    (n = 4 ∧ i ∈ [Instr.amoaddW rd rs1 rs2, .amoswapW rd rs1 rs2, .amoandW rd rs1 rs2, .amoorW rd rs1 rs2,
        .amominW rd rs1 rs2, .amomaxW rd rs1 rs2, .amominuW rd rs1 rs2, .amomaxuW rd rs1 rs2]) ∨
      (n = 8 ∧ s.cfg.xlen = .rv64 ∧ i ∈ [Instr.amoaddD rd rs1 rs2, .amoswapD rd rs1 rs2, .amoandD rd rs1 rs2,
        .amoorD rd rs1 rs2, .amominD rd rs1 rs2, .amomaxD rd rs1 rs2, .amominuD rd rs1 rs2, .amomaxuD rd rs1 rs2]) →
    exec i s = raise (.accessFault b .store) s)

/-- R139, which the spec derives from R52, R53 and R67: a store, and later, with no write to its bytes in between, a load of the
same width from the same address, gives back the low bytes stored, extended as the load says, whatever the byte order and
from either register file to either.  What FSW and FSD store of a register that holds the other view is a free value (U7), the
same that comes back. -/
def Obligations.StoreThenLoad : Prop :=
  ∀ (rd rb rs1 rs2 : Reg) (imm imm' : BitVec 12) (s t v u : State),
    v.cfg = s.cfg → v.address rb imm' = s.address rs1 imm → s.TrapFree t → v.TrapFree u →
    (let unwritten (n : Nat) : Prop := ∀ b ∈ s.span (s.address rs1 imm) n, Memory.read v.mem b = Memory.read t.mem b
    let x := s.readX rs2
    let single := s.readS 2 rs2
    let double := s.readD 2 rs2
    (∀ w, s.readF rs2 = .s w → single = w) ∧ (∀ w, s.readF rs2 = .d w → double = w) ∧
    (unwritten 1 → exec (.sb rs1 rs2 imm) s = .next t →
      (exec (.lb rd rb imm') v = .next u → u.readX rd = (if rd = 0 then 0 else sext s.cfg.xlen (x.setWidth 8))) ∧
      (exec (.lbu rd rb imm') v = .next u → u.readX rd = (if rd = 0 then 0 else zext s.cfg.xlen (x.setWidth 8)))) ∧
    (unwritten 2 → exec (.sh rs1 rs2 imm) s = .next t →
      (exec (.lh rd rb imm') v = .next u → u.readX rd = (if rd = 0 then 0 else sext s.cfg.xlen (x.setWidth 16))) ∧
      (exec (.lhu rd rb imm') v = .next u → u.readX rd = (if rd = 0 then 0 else zext s.cfg.xlen (x.setWidth 16)))) ∧
    (unwritten 4 → exec (.sw rs1 rs2 imm) s = .next t →
      (exec (.lw rd rb imm') v = .next u → u.readX rd = (if rd = 0 then 0 else sext s.cfg.xlen (x.setWidth 32))) ∧
      (exec (.lwu rd rb imm') v = .next u → u.readX rd = (if rd = 0 then 0 else zext s.cfg.xlen (x.setWidth 32))) ∧
      (exec (.flw rd rb imm') v = .next u → u.readF rd = .s (x.setWidth 32))) ∧
    (unwritten 8 → exec (.sd rs1 rs2 imm) s = .next t →
      (exec (.ld rd rb imm') v = .next u → u.readX rd = (if rd = 0 then 0 else x)) ∧
      (exec (.fld rd rb imm') v = .next u → u.readF rd = .d x)) ∧
    (unwritten 4 → exec (.fsw rs1 rs2 imm) s = .next t →
      (exec (.flw rd rb imm') v = .next u → u.readF rd = .s single) ∧
      (exec (.lw rd rb imm') v = .next u → u.readX rd = (if rd = 0 then 0 else sext s.cfg.xlen single)) ∧
      (exec (.lwu rd rb imm') v = .next u → u.readX rd = (if rd = 0 then 0 else zext s.cfg.xlen single))) ∧
    (unwritten 8 → exec (.fsd rs1 rs2 imm) s = .next t →
      (exec (.fld rd rb imm') v = .next u → u.readF rd = .d double) ∧
      (exec (.ld rd rb imm') v = .next u → u.readX rd = (if rd = 0 then 0 else double))))

/-! ### Atomic memory operations -/

/-- R151, R153 to R160: an aligned, permitted AMO.W writes its operator of the old word and `x[rs2][31:0]` to memory, and
the old word, sign-extended, to `x[rd]`. -/
def Obligations.AmoWordResults : Prop :=
  ∀ (rd rs1 rs2 : Reg) (s : State), s.ux rs1 % 4 = 0 → s.Permitted [.load, .store] (s.readX rs1) 4 →
    ∃ old : XWord, s.HoldsBytes (s.readX rs1) 4 old ∧ SignExtendedFrom s.cfg.xlen 32 old ∧
      (let t : BitVec 32 := old.setWidth 32
      let v : BitVec 32 := (s.readX rs2).setWidth 32
      let done (i : Instr) (new : BitVec 32) : Prop := CompletesAmo i rd (s.readX rs1) 4 old (new.setWidth 64) s
      done (.amoaddW rd rs1 rs2) (t + v) ∧ done (.amoswapW rd rs1 rs2) v ∧
      done (.amoandW rd rs1 rs2) (t &&& v) ∧ done (.amoorW rd rs1 rs2) (t ||| v) ∧
      done (.amominW rd rs1 rs2) (if t.toInt ≤ v.toInt then t else v) ∧
      done (.amomaxW rd rs1 rs2) (if t.toInt ≤ v.toInt then v else t) ∧
      done (.amominuW rd rs1 rs2) (if t.toNat ≤ v.toNat then t else v) ∧
      done (.amomaxuW rd rs1 rs2) (if t.toNat ≤ v.toNat then v else t))

/-- R151, R161 to R168: an aligned, permitted AMO.D on RV64. -/
def Obligations.AmoDoubleResults : Prop :=
  ∀ (rd rs1 rs2 : Reg) (s : State), s.cfg.xlen = .rv64 → s.ux rs1 % 8 = 0 →
    s.Permitted [.load, .store] (s.readX rs1) 8 →
    ∃ t : XWord, s.HoldsBytes (s.readX rs1) 8 t ∧
      (let v := s.readX rs2
      let done (i : Instr) (new : BitVec 64) : Prop := CompletesAmo i rd (s.readX rs1) 8 t new s
      done (.amoaddD rd rs1 rs2) (t + v) ∧ done (.amoswapD rd rs1 rs2) v ∧
      done (.amoandD rd rs1 rs2) (t &&& v) ∧ done (.amoorD rd rs1 rs2) (t ||| v) ∧
      done (.amominD rd rs1 rs2) (if t.toInt ≤ v.toInt then t else v) ∧
      done (.amomaxD rd rs1 rs2) (if t.toInt ≤ v.toInt then v else t) ∧
      done (.amominuD rd rs1 rs2) (if t.toNat ≤ v.toNat then t else v) ∧
      done (.amomaxuD rd rs1 rs2) (if t.toNat ≤ v.toNat then v else t))

/-- R58, R152, R473: an AMO at an address that is not naturally aligned raises MisalignedAddress with the address, before
any permission is looked at; the .D forms on RV64. -/
def Obligations.MisalignedAmoTraps : Prop :=
  ∀ (rd rs1 rs2 : Reg) (s : State) (i : Instr),
    (s.ux rs1 % 4 ≠ 0 ∧ i ∈ [Instr.amoaddW rd rs1 rs2, .amoswapW rd rs1 rs2, .amoandW rd rs1 rs2, .amoorW rd rs1 rs2,
      .amominW rd rs1 rs2, .amomaxW rd rs1 rs2, .amominuW rd rs1 rs2, .amomaxuW rd rs1 rs2]) ∨
    (s.cfg.xlen = .rv64 ∧ s.ux rs1 % 8 ≠ 0 ∧ i ∈ [Instr.amoaddD rd rs1 rs2, .amoswapD rd rs1 rs2, .amoandD rd rs1 rs2,
      .amoorD rd rs1 rs2, .amominD rd rs1 rs2, .amomaxD rd rs1 rs2, .amominuD rd rs1 rs2, .amomaxuD rd rs1 rs2]) →
    exec i s = raise (.misalignedAddress (s.readX rs1)) s

/-! ### The fetch view -/

/-- R420 to R422, R70 b: after FENCE.I a fetch at any pc and in any step, with nothing stored in between, reads the word that
memory holds, and it ignores its fields, as FENCE does.  That FENCE changes nothing is the model's choice of a single hardware
thread (log entry 14, DESIGN CHOICE), which R421 lets be a no-op. -/
def Obligations.FencesAndFetchView : Prop :=
  ∀ (rd rs1 : Reg) (imm : BitVec 12) (s : State),
    CompletesJump (.fence rd rs1 imm) s.pcPlus4 s ∧
    ∃ t, exec (.fenceI rd rs1 imm) s = .next t ∧ Kept s t ∧ t.x = s.x ∧ t.f = s.f ∧ t.fsr = s.fsr ∧ t.mem = s.mem ∧
      t.pc = s.pcPlus4 ∧ (∀ a, t.fetchByte a = Memory.read s.mem a) ∧
      ∀ pc n, State.fetchWord { t with pc := pc, draws := n } = s.wordOf (Memory.read s.mem) pc

/-- R44, R70 a, R422: while addresses are stored to, a fetch gives the word that memory holds or the word it held at the last
FENCE.I, the whole word in either case; and it reads memory where nothing was stored since.  That the old word is that of the
last FENCE.I, however often the addresses are stored to, is the model's reading (log entry 9, DEDUCED). -/
def Obligations.FetchSeesOldOrNew : Prop :=
  ∀ (s : State) (cells : List Host.Cell), s.stale = [] →
    let t := s.storeBytes cells
    (t.fetchWord = t.wordOf (Memory.read t.mem) t.pc ∨ t.fetchWord = s.wordOf (Memory.read s.mem) s.pc) ∧
    ((∀ c ∈ cells, c.1 ∉ s.span s.pc 4) → t.fetchWord = s.wordOf (Memory.read s.mem) s.pc) ∧
    ∀ a, (t.fetchByte a = Memory.read t.mem a ∨ t.fetchByte a = Memory.read s.mem a) ∧
      ((∀ c ∈ cells, c.1 ≠ a) → t.fetchByte a = Memory.read s.mem a)

/-- R54, R55: with a fetch view that agrees with memory, the word fetched is the 4-byte read of memory on a little-endian
machine, and that read with its halves exchanged on a big-endian one. -/
def Obligations.FetchParcelOrder : Prop :=
  ∀ s : State, s.stale = [] →
    (s.cfg.endian = .little → s.fetchWord = (s.memRead s.pc 4).setWidth 32) ∧
    (s.cfg.endian = .big →
      s.fetchWord = (s.memRead s.pc 4).extractLsb' 0 16 ++ (s.memRead s.pc 4).extractLsb' 16 16)

/-! ### System -/

/-- R431, R432, R474, R475: SYSCALL and BREAK hand their exception with the pc to the environment and change nothing; when
it answers Stop the thread halts there. -/
def Obligations.SyscallAndBreakTrap : Prop :=
  ∀ s : State, exec .syscall s = raise .syscall s ∧ exec .brk s = raise .breakpoint s ∧
    (s.outcome ⟨.syscall, s.readPc⟩ = .stop →
      exec .syscall s = .next { s with traps := ⟨.syscall, s.readPc⟩ :: s.traps, halted := true }) ∧
    (s.outcome ⟨.breakpoint, s.readPc⟩ = .stop →
      exec .brk s = .next { s with traps := ⟨.breakpoint, s.readPc⟩ :: s.traps, halted := true })

/-- R433 to R435: the counter reads write the count modulo `2^XPRLEN`, RDINSTRET the count before itself; so on RV64 a clock
that has not overflowed reads as the count itself. -/
def Obligations.CounterReads : Prop :=
  ∀ (rd : Reg) (s : State),
    CompletesX (.rdcycle rd) rd s (fun v => v.toNat = s.cycle % s.modulus) ∧
    CompletesX (.rdtime rd) rd s (fun v => v.toNat = s.time % s.modulus) ∧
    CompletesX (.rdinstret rd) rd s (fun v => v.toNat = s.instret % s.modulus)

/-! ### The floating-point status register -/

/-- R390, R392, R393, R37, R38: MFFSR writes `fsr`, zero-extended, to `x[rd]`; MTFSR writes the old value there and bits 7:0 of
`x[rs1]` to `fsr`, an invalid mode included.  That the fields are bits 7:0 and that bits 31:8 read as zero and ignore writes are
the spec's decisions D13 and D14, from general knowledge (log entry 15, PRESUMED). -/
def Obligations.FsrAccess : Prop :=
  ∀ (rd rs1 : Reg) (s : State),
    encode (.mffsr rd) = rd ++ 0b00000#5 ++ 0b00000#5 ++ 0b11101#5 ++ 0b000#3 ++ 0b00#2 ++ 0b1010011#7 ∧
    encode (.mtfsr rd rs1) = rd ++ rs1 ++ 0b00000#5 ++ 0b11111#5 ++ 0b000#3 ++ 0b00#2 ++ 0b1010011#7 ∧
    CompletesX (.mffsr rd) rd s (fun v => v.toNat = s.fsr.toNat % 256) ∧
    ∃ t v, exec (.mtfsr rd rs1) s = .next t ∧ Kept s t ∧ KeptMem s t ∧ NewX rd v s t ∧ t.f = s.f ∧
      t.pc = s.pcPlus4 ∧ v.toNat = s.fsr.toNat % 256 ∧ t.fsr.toNat = s.ux rs1 % 256

/-! ### Floating-point arithmetic -/

/-- R304 to R308, R311 to R315, R292, R300, R301: where the rounding mode is valid, the one- and two-operand arithmetic writes
its result to `f[rd]` and its flags to `fsr`, and nothing else.  R295, R303: on finite operands the result is the exact sum,
difference, product, quotient or root, rounded, or the zero whose sign R303 gives (general knowledge, log entry 21). -/
def Obligations.FpArithmeticCompletes : Prop :=
  (∀ (rd rs1 rs2 : Reg) (rm : BitVec 3) (s : State) (m : RMode), s.effRM rm = some m →
    (let tiny := s.cfg.fp.tininess
    let a := s.patS 1 rs1
    let b := s.patS 2 rs2
    let doneS (i : Instr) (r : FResult) : Prop := CompletesFFlags i rd (.s (r.bits.setWidth 32)) r.flags s
    doneS (.faddS rd rs1 rs2 rm) (fadd .single tiny m a b) ∧ doneS (.fsubS rd rs1 rs2 rm) (fsub .single tiny m a b) ∧
    doneS (.fmulS rd rs1 rs2 rm) (fmul .single tiny m a b) ∧ doneS (.fdivS rd rs1 rs2 rm) (fdiv .single tiny m a b) ∧
    doneS (.fsqrtS rd rs1 rm) (fsqrt .single tiny m a)) ∧
    (let tiny := s.cfg.fp.tininess
    let a := s.patD 1 rs1
    let b := s.patD 2 rs2
    let doneD (i : Instr) (r : FResult) : Prop := CompletesFFlags i rd (.d r.bits) r.flags s
    doneD (.faddD rd rs1 rs2 rm) (fadd .double tiny m a b) ∧ doneD (.fsubD rd rs1 rs2 rm) (fsub .double tiny m a b) ∧
    doneD (.fmulD rd rs1 rs2 rm) (fmul .double tiny m a b) ∧ doneD (.fdivD rd rs1 rs2 rm) (fdiv .double tiny m a b) ∧
    doneD (.fsqrtD rd rs1 rm) (fsqrt .double tiny m a))) ∧
  ∀ (f : Fmt) (tiny : Tininess) (m : RMode) (a b : Pattern) (x y : ℚ),
    (unpack f a).toRat = some x → (unpack f b).toRat = some y →
    (let na := signField f a
    let nb := signField f b
    (x + y ≠ 0 → IsRound f tiny m ((x + y : ℚ) : ℝ) (fadd f tiny m a b)) ∧
    (x + y = 0 → GivesZero f (fadd f tiny m a b) (if x = 0 ∧ na = nb then na else decide (m = .rdn))) ∧
    (x - y ≠ 0 → IsRound f tiny m ((x - y : ℚ) : ℝ) (fsub f tiny m a b)) ∧
    (x - y = 0 → GivesZero f (fsub f tiny m a b) (if x = 0 ∧ na ≠ nb then na else decide (m = .rdn))) ∧
    (x * y ≠ 0 → IsRound f tiny m ((x * y : ℚ) : ℝ) (fmul f tiny m a b)) ∧
    (x * y = 0 → GivesZero f (fmul f tiny m a b) (na ^^ nb)) ∧
    (x ≠ 0 → y ≠ 0 → IsRound f tiny m ((x / y : ℚ) : ℝ) (fdiv f tiny m a b)) ∧
    (x = 0 → y ≠ 0 → GivesZero f (fdiv f tiny m a b) (na ^^ nb)) ∧
    (0 < x → IsRound f tiny m (Real.sqrt x) (fsqrt f tiny m a)) ∧
    (x = 0 → GivesZero f (fsqrt f tiny m a) na))

/-- R318 to R326: where the rounding mode is valid, the fused operations write their result and its flags, and nothing else.
R295, R303: on finite operands that result is the once rounded sum of the exact product and the addend, each perhaps negated,
or the zero whose sign R303 gives (general knowledge, log entry 21). -/
def Obligations.FusedMultiplyAddCompletes : Prop :=
  (∀ (rd rs1 rs2 rs3 : Reg) (rm : BitVec 3) (s : State) (m : RMode), s.effRM rm = some m →
    (let r (np na : Bool) := fma .single s.cfg.fp m np na (s.patS 1 rs1) (s.patS 2 rs2) (s.patS 3 rs3)
    let doneS (i : Instr) (r : FResult) : Prop := CompletesFFlags i rd (.s (r.bits.setWidth 32)) r.flags s
    doneS (.fmaddS rd rs1 rs2 rs3 rm) (r false false) ∧ doneS (.fmsubS rd rs1 rs2 rs3 rm) (r false true) ∧
    doneS (.fnmsubS rd rs1 rs2 rs3 rm) (r true false) ∧ doneS (.fnmaddS rd rs1 rs2 rs3 rm) (r true true)) ∧
    (let r (np na : Bool) := fma .double s.cfg.fp m np na (s.patD 1 rs1) (s.patD 2 rs2) (s.patD 3 rs3)
    let doneD (i : Instr) (r : FResult) : Prop := CompletesFFlags i rd (.d r.bits) r.flags s
    doneD (.fmaddD rd rs1 rs2 rs3 rm) (r false false) ∧ doneD (.fmsubD rd rs1 rs2 rs3 rm) (r false true) ∧
    doneD (.fnmsubD rd rs1 rs2 rs3 rm) (r true false) ∧ doneD (.fnmaddD rd rs1 rs2 rs3 rm) (r true true))) ∧
  ∀ (f : Fmt) (cfg : FPConfig) (m : RMode) (np na : Bool) (a b c : Pattern) (x y z : ℚ),
    (unpack f a).toRat = some x → (unpack f b).toRat = some y → (unpack f c).toRat = some z →
    (let v : ℚ := (if np then -1 else 1) * (x * y) + (if na then -1 else 1) * z
    let signP := signField f a ^^ signField f b ^^ np
    let signC := signField f c ^^ na
    (v ≠ 0 → IsRound f cfg.tininess m (v : ℝ) (fma f cfg m np na a b c)) ∧
    (v = 0 → GivesZero f (fma f cfg m np na a b c) (if x * y = 0 ∧ signP = signC then signP else decide (m = .rdn))))

/-- R297: an arithmetic operation with a signaling NaN among its operands gives the first one made quiet and raises NV; with
only quiet ones it gives the first of them, and raises nothing but the NV that R302 allows a fused operation (the flags: general knowledge, log
entry 21). -/
def Obligations.NaNPropagation : Prop :=
  ∀ (f : Fmt) (cfg : FPConfig) (m : RMode) (np na : Bool) (a b c : Pattern),
    (isSignaling f a = true →
      let r : FResult := ⟨a ||| quietBit f, nvIf true⟩
      fadd f cfg.tininess m a b = r ∧ fsub f cfg.tininess m a b = r ∧ fmul f cfg.tininess m a b = r ∧
      fdiv f cfg.tininess m a b = r ∧ fsqrt f cfg.tininess m a = r ∧ fma f cfg m np na a b c = r) ∧
    (isSignaling f a = false → isSignaling f b = true →
      let r : FResult := ⟨b ||| quietBit f, nvIf true⟩
      fadd f cfg.tininess m a b = r ∧ fsub f cfg.tininess m a b = r ∧ fmul f cfg.tininess m a b = r ∧
      fdiv f cfg.tininess m a b = r ∧ fma f cfg m np na a b c = r) ∧
    (isSignaling f a = false → isSignaling f b = false → isSignaling f c = true →
      fma f cfg m np na a b c = ⟨c ||| quietBit f, nvIf true⟩) ∧
    (isSignaling f a = false → isSignaling f b = false → isSignaling f c = false →
      (isNaN f a = true → fadd f cfg.tininess m a b = FResult.quiet a ∧ fsub f cfg.tininess m a b = FResult.quiet a ∧
        fmul f cfg.tininess m a b = FResult.quiet a ∧ fdiv f cfg.tininess m a b = FResult.quiet a ∧
        fsqrt f cfg.tininess m a = FResult.quiet a ∧ fma f cfg m np na a b c = FResult.quiet a) ∧
      (isNaN f a = false → isNaN f b = true →
        fadd f cfg.tininess m a b = FResult.quiet b ∧ fsub f cfg.tininess m a b = FResult.quiet b ∧
        fmul f cfg.tininess m a b = FResult.quiet b ∧ fdiv f cfg.tininess m a b = FResult.quiet b ∧
        fma f cfg m np na a b c = FResult.quiet b) ∧
      (isNaN f a = false → isNaN f b = false → isNaN f c = true →
        fma f cfg m np na a b c = ⟨c, nvIf (cfg.fmaInfZeroQnanNV && infTimesZero (unpack f a) (unpack f b))⟩))

/-- R296, R303: the invalid operations on operands that are no NaNs give the canonical NaN and NV alone; a finite non-zero
number divided by zero gives a signed infinity and DZ alone; and every other operation with an infinite operand gives an
infinity or, dividing by it, a zero, with the sign R303 says, and raises nothing (general knowledge, log entry 21). -/
def Obligations.InvalidOperations : Prop :=
  canonicalNaN .single = 0x7FFFFFFF#64 ∧ canonicalNaN .double = 0x7FFFFFFFFFFFFFFF#64 ∧
  ∀ (f : Fmt) (tiny : Tininess) (m : RMode) (a b : Pattern),
    let bad : FResult := ⟨canonicalNaN f, nvIf true⟩
    (∀ n, unpack f a = .inf n → unpack f b = .inf (!n) → fadd f tiny m a b = bad) ∧
    (∀ n, unpack f a = .inf n → unpack f b = .inf n → fsub f tiny m a b = bad) ∧
    (∀ n n' e, unpack f a = .inf n → unpack f b = .fin n' 0 e → fmul f tiny m a b = bad ∧ fmul f tiny m b a = bad) ∧
    (∀ n n', unpack f a = .inf n → unpack f b = .inf n' → fdiv f tiny m a b = bad) ∧
    (∀ n n' e e', unpack f a = .fin n 0 e → unpack f b = .fin n' 0 e' → fdiv f tiny m a b = bad) ∧
    (∀ k e, k ≠ 0 → unpack f a = .fin true k e → fsqrt f tiny m a = bad) ∧
    (unpack f a = .inf true → fsqrt f tiny m a = bad) ∧
    (∀ n k e n' e', k ≠ 0 → unpack f a = .fin n k e → unpack f b = .fin n' 0 e' →
      f.RepresentsInf (fdiv f tiny m a b).bits (n ^^ n') ∧
        (fdiv f tiny m a b).flags = { FFlags.none with dz := true }) ∧
    (∀ n, unpack f a = .inf n → isNaN f b = false → unpack f b ≠ .inf (!n) →
      GivesInf f (fadd f tiny m a b) n ∧ GivesInf f (fadd f tiny m b a) n) ∧
    (∀ n, unpack f a = .inf n → isNaN f b = false → unpack f b ≠ .inf n →
      GivesInf f (fsub f tiny m a b) n ∧ GivesInf f (fsub f tiny m b a) (!n)) ∧
    (∀ n n', unpack f a = .inf n → (unpack f b = .inf n' ∨ ∃ k e, k ≠ 0 ∧ unpack f b = .fin n' k e) →
      GivesInf f (fmul f tiny m a b) (n ^^ n') ∧ GivesInf f (fmul f tiny m b a) (n ^^ n')) ∧
    (∀ n n' k e, unpack f a = .inf n → unpack f b = .fin n' k e →
      GivesInf f (fdiv f tiny m a b) (n ^^ n') ∧ GivesZero f (fdiv f tiny m b a) (n ^^ n')) ∧
    (unpack f a = .inf false → GivesInf f (fsqrt f tiny m a) false) ∧
    ∀ (cfg : FPConfig) (np na : Bool) (c : Pattern), isNaN f c = false →
      (∀ n n' e, unpack f a = .inf n → unpack f b = .fin n' 0 e →
        fma f cfg m np na a b c = bad ∧ fma f cfg m np na b a c = bad) ∧
      (∀ n n', unpack f a = .inf n → (unpack f b = .inf n' ∨ ∃ k e, k ≠ 0 ∧ unpack f b = .fin n' k e) →
        (unpack f c = .inf (!(n ^^ n' ^^ np) ^^ na) → fma f cfg m np na a b c = bad ∧ fma f cfg m np na b a c = bad) ∧
        (unpack f c ≠ .inf (!(n ^^ n' ^^ np) ^^ na) →
          GivesInf f (fma f cfg m np na a b c) (n ^^ n' ^^ np) ∧ GivesInf f (fma f cfg m np na b a c) (n ^^ n' ^^ np))) ∧
      (∀ x y n, (unpack f a).toRat = some x → (unpack f b).toRat = some y → unpack f c = .inf n →
        GivesInf f (fma f cfg m np na a b c) (n ^^ na))

/-- R35, R295 b to e (general knowledge, log entry 21, PRESUMED), for every ratio of integers and every square root of one,
with either sign: cut at a grid of any spacing it is rounded to a whole number of steps in each direction, the cut being exact
just where it is whole; and `roundTo` is the `Round` of R295, with its overflow, subnormal and normal results and flags. -/
def Obligations.RoundingDirections : Prop :=
  ∀ (v : Mag) (x : ℝ) (neg : Bool), 0 < v.den → v.Is x →
    (∀ q : ℤ,
      let c := v.cut q
      let y : ℝ := x / 2 ^ q
      (c.exact = true ↔ y = c.whole) ∧
      ∀ m, RoundsToInt m (if neg then -y else y) (if neg then -(c.round m neg : ℤ) else c.round m neg)) ∧
    (0 < v.num → ∀ (f : Fmt) (tiny : Tininess) (m : RMode),
      IsRound f tiny m (if neg then -x else x) (roundTo f tiny m neg v))

/-- R291, R295 d and e (general knowledge, log entry 21, PRESUMED): rounding a value that the format holds, normal or subnormal,
gives it back in every mode, whenever tininess is judged, and raises no flag. -/
def Obligations.RoundingKeepsRepresentable : Prop :=
  ∀ (f : Fmt) (tiny : Tininess) (m : RMode) (b : Pattern) (neg : Bool) (mant : Nat) (e : Int),
    f.IsPattern b → unpack f b = .fin neg mant e → mant ≠ 0 →
    roundTo f tiny m neg (Mag.dyadic mant e) = FResult.quiet b

/-- R371 to R377: sign injection takes every bit but the sign from `f[rs1]`, the sign as the instruction says, and raises
nothing; a register that holds the view read gives its pattern, one that holds the other view a free value (U7). -/
def Obligations.SignInjection : Prop :=
  ∀ (rd rs1 rs2 : Reg) (s : State),
    (let a := s.readS 1 rs1
    let b := s.readS 2 rs2
    (∀ v, s.readF rs1 = .s v → a = v) ∧ (∀ v, s.readF rs2 = .s v → b = v) ∧
      CompletesF (.fsgnjS rd rs1 rs2) rd (.s (b.extractLsb' 31 1 ++ a.extractLsb' 0 31)) s ∧
      CompletesF (.fsgnjnS rd rs1 rs2) rd (.s (~~~(b.extractLsb' 31 1) ++ a.extractLsb' 0 31)) s ∧
      CompletesF (.fsgnjxS rd rs1 rs2) rd (.s ((a.extractLsb' 31 1 ^^^ b.extractLsb' 31 1) ++ a.extractLsb' 0 31)) s) ∧
    (let a := s.readD 1 rs1
    let b := s.readD 2 rs2
    (∀ v, s.readF rs1 = .d v → a = v) ∧ (∀ v, s.readF rs2 = .d v → b = v) ∧
      CompletesF (.fsgnjD rd rs1 rs2) rd (.d (b.extractLsb' 63 1 ++ a.extractLsb' 0 63)) s ∧
      CompletesF (.fsgnjnD rd rs1 rs2) rd (.d (~~~(b.extractLsb' 63 1) ++ a.extractLsb' 0 63)) s ∧
      CompletesF (.fsgnjxD rd rs1 rs2) rd (.d ((a.extractLsb' 63 1 ^^^ b.extractLsb' 63 1) ++ a.extractLsb' 0 63)) s)

/-- R298, R302, R309, R310, R316, R317: FMIN and FMAX write the smaller or larger operand, the first where they are the same, and
for zeros of different signs the zero that `fmin_fmax_zero` of the configuration names; they raise NV for a signaling NaN
alone (general knowledge, log entry 21). -/
def Obligations.MinimumAndMaximum : Prop :=
  ∀ (rd rs1 rs2 : Reg) (s : State),
    (let a := s.patS 1 rs1
    let b := s.patS 2 rs2
    let pick := s.cfg.fp.zeroPick
    ∃ lo hi : FResult,
      CompletesFFlags (.fminS rd rs1 rs2) rd (.s (lo.bits.setWidth 32)) lo.flags s ∧
      CompletesFFlags (.fmaxS rd rs1 rs2) rd (.s (hi.bits.setWidth 32)) hi.flags s ∧
      (isSignaling .single a = true → lo = ⟨a ||| 0x00400000#64, nvIf true⟩ ∧ hi = lo) ∧
      (isSignaling .single a = false → isSignaling .single b = true → lo = ⟨b ||| 0x00400000#64, nvIf true⟩ ∧ hi = lo) ∧
      (isSignaling .single a = false → isSignaling .single b = false →
        lo.flags = FFlags.none ∧ hi.flags = FFlags.none ∧
        (isNaN .single a = true → lo.bits = (if isNaN .single b then a else b) ∧ hi.bits = lo.bits) ∧
        (isNaN .single a = false → isNaN .single b = true → lo.bits = a ∧ hi.bits = a) ∧
        ((unpack .single a).lt (unpack .single b) = true → lo.bits = a ∧ hi.bits = b) ∧
        ((unpack .single b).lt (unpack .single a) = true → lo.bits = b ∧ hi.bits = a) ∧
        (a = b → lo.bits = a ∧ hi.bits = a) ∧
        ((unpack .single a).toRat = some 0 → (unpack .single b).toRat = some 0 →
          signField .single a ≠ signField .single b →
          lo.bits = (if (if signField .single a then pick.minNegPos else pick.minPosNeg) then 0x80000000#64 else 0#64) ∧
          hi.bits = (if (if signField .single a then pick.maxNegPos else pick.maxPosNeg) then 0x80000000#64 else 0#64)))) ∧
    (let a := s.patD 1 rs1
    let b := s.patD 2 rs2
    let pick := s.cfg.fp.zeroPick
    ∃ lo hi : FResult,
      CompletesFFlags (.fminD rd rs1 rs2) rd (.d lo.bits) lo.flags s ∧
      CompletesFFlags (.fmaxD rd rs1 rs2) rd (.d hi.bits) hi.flags s ∧
      (isSignaling .double a = true → lo = ⟨a ||| 0x0008000000000000#64, nvIf true⟩ ∧ hi = lo) ∧
      (isSignaling .double a = false → isSignaling .double b = true →
        lo = ⟨b ||| 0x0008000000000000#64, nvIf true⟩ ∧ hi = lo) ∧
      (isSignaling .double a = false → isSignaling .double b = false →
        lo.flags = FFlags.none ∧ hi.flags = FFlags.none ∧
        (isNaN .double a = true → lo.bits = (if isNaN .double b then a else b) ∧ hi.bits = lo.bits) ∧
        (isNaN .double a = false → isNaN .double b = true → lo.bits = a ∧ hi.bits = a) ∧
        ((unpack .double a).lt (unpack .double b) = true → lo.bits = a ∧ hi.bits = b) ∧
        ((unpack .double b).lt (unpack .double a) = true → lo.bits = b ∧ hi.bits = a) ∧
        (a = b → lo.bits = a ∧ hi.bits = a) ∧
        ((unpack .double a).toRat = some 0 → (unpack .double b).toRat = some 0 →
          signField .double a ≠ signField .double b →
          lo.bits = (if (if signField .double a then pick.minNegPos else pick.minPosNeg) then 0x8000000000000000#64
            else 0#64) ∧
          hi.bits = (if (if signField .double a then pick.maxNegPos else pick.maxPosNeg) then 0x8000000000000000#64
            else 0#64))))

/-- R383 to R389: the comparisons write 1 or 0 by value, 0 where an operand is a NaN, and raise NV for a signaling NaN, and
for a quiet one where the configuration says so (general knowledge, log entry 21). -/
def Obligations.FpComparisons : Prop :=
  ∀ (rd rs1 rs2 : Reg) (s : State),
    (let a := s.patS 1 rs1
    let b := s.patS 2 rs2
    let q := s.cfg.fp.cmpFlags
    let signaling := isSignaling .single a || isSignaling .single b
    let someNaN := isNaN .single a || isNaN .single b
    ∃ eq lt le : Bool,
      CompletesXFlags (.feqS rd rs1 rs2) rd (bit (eq = true)) (nvIf (signaling || (q.feq && someNaN))) s ∧
      CompletesXFlags (.fltS rd rs1 rs2) rd (bit (lt = true)) (nvIf (signaling || (q.flt && someNaN))) s ∧
      CompletesXFlags (.fleS rd rs1 rs2) rd (bit (le = true)) (nvIf (signaling || (q.fle && someNaN))) s ∧
      (someNaN = true → eq = false ∧ lt = false ∧ le = false) ∧
      (∀ x y, (unpack .single a).extended = some x → (unpack .single b).extended = some y →
        (eq = true ↔ x = y) ∧ (lt = true ↔ x < y) ∧ (le = true ↔ x ≤ y))) ∧
    (let a := s.patD 1 rs1
    let b := s.patD 2 rs2
    let q := s.cfg.fp.cmpFlags
    let signaling := isSignaling .double a || isSignaling .double b
    let someNaN := isNaN .double a || isNaN .double b
    ∃ eq lt le : Bool,
      CompletesXFlags (.feqD rd rs1 rs2) rd (bit (eq = true)) (nvIf (signaling || (q.feq && someNaN))) s ∧
      CompletesXFlags (.fltD rd rs1 rs2) rd (bit (lt = true)) (nvIf (signaling || (q.flt && someNaN))) s ∧
      CompletesXFlags (.fleD rd rs1 rs2) rd (bit (le = true)) (nvIf (signaling || (q.fle && someNaN))) s ∧
      (someNaN = true → eq = false ∧ lt = false ∧ le = false) ∧
      (∀ x y, (unpack .double a).extended = some x → (unpack .double b).extended = some y →
        (eq = true ↔ x = y) ∧ (lt = true ↔ x < y) ∧ (le = true ↔ x ≤ y)))

/-! ### Conversions and moves -/

/-- R351 to R359: where the rounding mode is valid, a conversion to an integer completes: a finite operand is rounded to an
integer in that direction; in range, that integer is the result and NX at most is raised; out of range, and for NaNs and
infinities, NV alone is raised and the integer is the one the configuration names for the target and the kind (U2, log entry
17).  The flags are general knowledge by the spec's mark (log entry 21).  The 64-bit forms on RV64. -/
def Obligations.FloatToIntegerCompletes : Prop :=
  ∀ (rd rs1 : Reg) (rm : BitVec 3) (s : State) (m : RMode), s.effRM rm = some m →
    (let word (w : Nat) (r : FResult) : XWord := if w = 64 then r.bits else sext s.cfg.xlen (r.bits.setWidth 32)
    let ok (f : Fmt) (a : Pattern) (w : Nat) (lo hi : ℤ) (bad : InvalidInts w) (i : Instr) : Prop :=
      ∃ r : FResult, CompletesXFlags i rd (word w r) r.flags s ∧
        (let delivers (v : BitVec w) : Prop := r.bits.setWidth w = v
        let invalid (v : BitVec w) : Prop := delivers v ∧ r.flags = nvIf true
        (isNaN f a = true → invalid bad.nan) ∧
        (∀ neg, unpack f a = .inf neg → invalid (if neg then bad.underflow else bad.overflow)) ∧
        ∀ x : ℚ, (unpack f a).toRat = some x → ∃ n : ℤ, RoundsToInt m x n ∧
          (n < lo → invalid bad.underflow) ∧ (hi < n → invalid bad.overflow) ∧
          (lo ≤ n → n ≤ hi → delivers (BitVec.ofInt w n) ∧
            r.flags = { FFlags.none with nx := decide ((n : ℚ) ≠ x) && s.cfg.fp.cvtInexact }))
    let a := s.patS 1 rs1
    let d := s.patD 1 rs1
    let bad := s.cfg.fp.cvtInvalid
    ok .single a 32 (-2 ^ 31) (2 ^ 31 - 1) bad.w (.fcvtWS rd rs1 rm) ∧
    ok .single a 32 0 (2 ^ 32 - 1) bad.wu (.fcvtWUS rd rs1 rm) ∧
    ok .double d 32 (-2 ^ 31) (2 ^ 31 - 1) bad.w (.fcvtWD rd rs1 rm) ∧
    ok .double d 32 0 (2 ^ 32 - 1) bad.wu (.fcvtWUD rd rs1 rm) ∧
    (s.cfg.xlen = .rv64 →
      ok .single a 64 (-2 ^ 63) (2 ^ 63 - 1) bad.l (.fcvtLS rd rs1 rm) ∧
      ok .single a 64 0 (2 ^ 64 - 1) bad.lu (.fcvtLUS rd rs1 rm) ∧
      ok .double d 64 (-2 ^ 63) (2 ^ 63 - 1) bad.l (.fcvtLD rd rs1 rm) ∧
      ok .double d 64 0 (2 ^ 64 - 1) bad.lu (.fcvtLUD rd rs1 rm)))

/-- R360 to R368: where the rounding mode is valid, a conversion from an integer writes the result for the integer the form
reads, and its flags, the 64-bit forms on RV64; that result is the integer rounded (R295, general knowledge,
log entry 21), and plus zero for zero. -/
def Obligations.IntegerToFloatCompletes : Prop :=
  (∀ (rd rs1 : Reg) (rm : BitVec 3) (s : State) (m : RMode), s.effRM rm = some m →
    (let tiny := s.cfg.fp.tininess
    let lo : Nat := s.ux rs1 % 2 ^ 32
    let slo : Int := if lo < 2 ^ 31 then lo else (lo : Int) - 2 ^ 32
    let single (i : Instr) (n : Int) : Prop :=
      CompletesFFlags i rd (.s ((cvtFromInt .single tiny m n).bits.setWidth 32)) (cvtFromInt .single tiny m n).flags s
    let double (i : Instr) (n : Int) : Prop :=
      CompletesFFlags i rd (.d (cvtFromInt .double tiny m n).bits) (cvtFromInt .double tiny m n).flags s
    single (.fcvtSW rd rs1 rm) slo ∧ single (.fcvtSWU rd rs1 rm) lo ∧
    double (.fcvtDW rd rs1 rm) slo ∧ double (.fcvtDWU rd rs1 rm) lo ∧
    (s.cfg.xlen = .rv64 →
      single (.fcvtSL rd rs1 rm) (s.sx rs1) ∧ single (.fcvtSLU rd rs1 rm) (s.ux rs1) ∧
      double (.fcvtDL rd rs1 rm) (s.sx rs1) ∧ double (.fcvtDLU rd rs1 rm) (s.ux rs1)))) ∧
  ∀ (f : Fmt) (tiny : Tininess) (m : RMode) (n : ℤ),
    (n ≠ 0 → IsRound f tiny m n (cvtFromInt f tiny m n)) ∧
    (n = 0 → GivesZero f (cvtFromInt f tiny m n) false)

/-- R360 to R368: an integer of a source register with at most 53 significant bits converts to the double of its value, and
one with at most 24 to the single, and raises nothing, in every mode. -/
def Obligations.ShortIntegersConvertExactly : Prop :=
  ∀ (f : Fmt) (tiny : Tininess) (m : RMode) (k : ℤ) (j : Nat),
    let n : ℤ := k * 2 ^ j
    k.natAbs ≤ 2 ^ (match f with | .single => 24 | .double => 53) → -2 ^ 63 ≤ n → n < 2 ^ 64 →
    f.Represents (cvtFromInt f tiny m n).bits (decide (n < 0)) n ∧ (cvtFromInt f tiny m n).flags = FFlags.none

/-- R369, R370, R299, R302: where the rounding mode is valid, the conversions between the formats complete.  A NaN keeps the top
of its fraction, is made quiet, has the sign `cvt_nan_sign` names, and raises NV just where it is signaling; infinities and
zeros keep their sign; any other double is rounded to single (R295, general knowledge, log entry 21), and any other single
keeps its value. -/
def Obligations.FormatConversionsComplete : Prop :=
  ∀ (rd rs1 : Reg) (rm : BitVec 3) (s : State) (m : RMode), s.effRM rm = some m →
    let nanSign (neg : Bool) : BitVec 1 :=
      BitVec.ofBool (if neg then s.cfg.fp.cvtNanSign.ofNeg else s.cfg.fp.cvtNanSign.ofPos)
    ∃ r r' : FResult,
      CompletesFFlags (.fcvtSD rd rs1 rm) rd (.s (r.bits.setWidth 32)) r.flags s ∧
      CompletesFFlags (.fcvtDS rd rs1 rm) rd (.d r'.bits) r'.flags s ∧
      r = cvtSofD s.cfg.fp m (s.patD 1 rs1) ∧ r' = cvtDofS s.cfg.fp (s.patS 1 rs1) ∧
      (isNaN .double (s.patD 1 rs1) = true →
        r.bits.extractLsb' 31 1 = nanSign (signField .double (s.patD 1 rs1)) ∧
        r.bits.extractLsb' 23 8 = 0xFF#8 ∧ r.bits.extractLsb' 22 1 = 1#1 ∧
        r.bits.extractLsb' 0 22 = (s.patD 1 rs1).extractLsb' 29 22 ∧
        r.flags = nvIf (isSignaling .double (s.patD 1 rs1))) ∧
      (∀ n, unpack .double (s.patD 1 rs1) = .inf n → GivesInf .single r n) ∧
      (∀ x : ℚ, (unpack .double (s.patD 1 rs1)).toRat = some x →
        (x ≠ 0 → IsRound .single s.cfg.fp.tininess m x r) ∧
        (x = 0 → GivesZero .single r (signField .double (s.patD 1 rs1)))) ∧
      (isNaN .single (s.patS 1 rs1) = true →
        r'.bits.extractLsb' 63 1 = nanSign (signField .single (s.patS 1 rs1)) ∧
        r'.bits.extractLsb' 52 11 = 0x7FF#11 ∧ r'.bits.extractLsb' 51 1 = 1#1 ∧
        r'.bits.extractLsb' 29 22 = (s.patS 1 rs1).extractLsb' 0 22 ∧ r'.bits.extractLsb' 0 29 = 0#29 ∧
        r'.flags = nvIf (isSignaling .single (s.patS 1 rs1))) ∧
      (∀ n, unpack .single (s.patS 1 rs1) = .inf n → GivesInf .double r' n) ∧
      ∀ x : ℚ, (unpack .single (s.patS 1 rs1)).toRat = some x →
        Fmt.double.Represents r'.bits (signField .single (s.patS 1 rs1)) x ∧ r'.flags = FFlags.none

/-- R370: widening a single that is no NaN keeps its value and its sign, that of a zero and of an infinity too, and raises
nothing. -/
def Obligations.WideningKeepsValue : Prop :=
  ∀ (cfg : FPConfig) (a : Pattern),
    (∀ x : ℚ, (unpack .single a).toRat = some x →
      Fmt.double.Represents (cvtDofS cfg a).bits (signField .single a) x ∧ (cvtDofS cfg a).flags = FFlags.none) ∧
    ∀ n, unpack .single a = .inf n → GivesInf .double (cvtDofS cfg a) n

/-- R378 to R382: the moves carry bit patterns unchanged; MFTX.S fills the upper half with the sign, MXTF.S ignores it; the
.D forms on RV64; a register that holds the other view moves a free value (U7). -/
def Obligations.MovesBetweenFiles : Prop :=
  ∀ (rd rs : Reg) (s : State),
    CompletesX (.mftxS rd rs) rd s (fun v =>
      (∀ p, s.readF rs = .s p → v.setWidth 32 = p) ∧ SignExtendedFrom s.cfg.xlen 32 v) ∧
    CompletesF (.mxtfS rd rs) rd (.s ((s.readX rs).setWidth 32)) s ∧
    (s.cfg.xlen = .rv64 →
      CompletesX (.mftxD rd rs) rd s (fun v => ∀ p, s.readF rs = .d p → v = p) ∧
      CompletesF (.mxtfD rd rs) rd (.d (s.readX rs)) s)
end

