-- ==== Sys2Proof/Laws/Decode.lean ====
section
/-! SUPPORT. The rows of the opcode table: no two of them accept one word, so the order in which they are searched does not
matter (spec/30_encoding.md R91). -/

namespace Sys2Proof

/-- Two rows differ in a bit that both fix. -/
def Row.apart (r r' : Row) : Prop := (r.fixed ^^^ r'.fixed) &&& r.mask &&& r'.mask ≠ 0

theorem rows_length : rows.length = 150 := by decide +kernel

/-- The fixed bits of a row are among the bits of its mask. -/
theorem rows_fixed_in_mask : ∀ r ∈ rows, r.fixed &&& r.mask = r.fixed := by decide +kernel

/-- Every row is in the space of the 32-bit instructions (R81), and fixes the bits that say so. -/
theorem rows_space : ∀ r ∈ rows, r.mask &&& 0x1F#32 = 0x1F#32 ∧ r.fixed.extractLsb' 0 2 = 0b11#2 ∧
    r.fixed.extractLsb' 2 3 ≠ 0b111#3 := by decide +kernel

/-- Any two rows differ in a bit that both fix. -/
theorem rows_apart : (rows.map fun r => (r.mask, r.fixed)).Pairwise
    fun p q => (p.2 ^^^ q.2) &&& p.1 &&& q.1 ≠ 0 := by decide +kernel

/-- A word is accepted by at most one of two rows that are apart. -/
theorem Row.apart.not_both {r r' : Row} (h : r.apart r') (w : IWord) (hr : r.accepts w = true) : r'.accepts w = false := by
  by_contra hr'
  apply h
  have e : w &&& r.mask = r.fixed := by simpa [Row.accepts] using hr
  have e' : w &&& r'.mask = r'.fixed := by simpa [Row.accepts] using hr'
  rw [← e, ← e']
  ext k hk
  simp only [BitVec.getElem_and, BitVec.getElem_xor]
  cases w[k] <;> cases r.mask[k] <;> cases r'.mask[k] <;> simp

/-- A search finds the row that accepts the word, where the rows are apart. -/
theorem find_of_accepts {rs : List Row} (apart : rs.Pairwise Row.apart) {r : Row} (mem : r ∈ rs) {w : IWord}
    (hr : r.accepts w = true) : rs.find? (·.accepts w) = some r := by
  induction rs with
  | nil => cases mem
  | cons q rs ih =>
    obtain ⟨hq, hrs⟩ := List.pairwise_cons.mp apart
    rw [List.find?_cons]
    rcases List.mem_cons.mp mem with rfl | mem
    · rw [hr]
    · have no : q.accepts w = false := by
        by_contra hw
        have := (hq r mem).not_both w (by simpa using hw)
        rw [hr] at this
        cases this
      rw [no]
      exact ih hrs mem

/-- The word that a row of the table accepts decodes to the instruction the row builds. -/
theorem decode_of_row {r : Row} (mem : r ∈ rows) {w : IWord} (hr : r.accepts w = true) : decode w = .ok (r.build w) := by
  have apart : rows.Pairwise Row.apart := List.Pairwise.of_map (fun r : Row => (r.mask, r.fixed)) (fun _ _ h => h) rows_apart
  obtain ⟨hm, h2, h3⟩ := rows_space r mem
  have e : w &&& r.mask = r.fixed := by simpa [Row.accepts] using hr
  have low : ∀ k < 5, w.getLsbD k = r.fixed.getLsbD k := by
    intro k hk
    have mk : r.mask.getLsbD k = true := by
      have one : ∀ k < 5, (0x1F#32).getLsbD k = true := by decide
      have one := one k hk
      have h := congrArg (fun v => v.getLsbD k) hm
      simp only [BitVec.getLsbD_and, one, Bool.and_true] at h
      exact h
    rw [← e, BitVec.getLsbD_and, mk, Bool.and_true]
  have b2 : w.extractLsb' 0 2 = r.fixed.extractLsb' 0 2 := by
    ext k hk
    simp only [BitVec.getElem_extractLsb']
    exact low _ (by omega)
  have b3 : w.extractLsb' 2 3 = r.fixed.extractLsb' 2 3 := by
    ext k hk
    simp only [BitVec.getElem_extractLsb']
    exact low _ (by omega)
  unfold decode
  rw [b2, b3, h2]
  simp [h3, find_of_accepts apart mem hr]

end Sys2Proof
end

