-- ==== Sys2Proof/Laws/Float.lean ====
section
/-! SUPPORT. What the operations under `roundTo` can do, said once over the real numbers: the integer square root, the exponent
of a magnitude, the cut at a grid; and what a packed pattern stands for. -/

namespace Sys2Proof.Machine

/-! ### Powers of two -/

theorem two_zpow_pos (q : ℤ) : (0 : ℝ) < 2 ^ q := by positivity

theorem two_zpow_toNat (q : ℤ) : (2 : ℝ) ^ q = 2 ^ q.toNat / 2 ^ (-q).toNat := by
  rw [← zpow_natCast, ← zpow_natCast, ← zpow_sub₀ (by norm_num)]
  congr 1
  omega

theorem two_zpow_add (p q : ℤ) : (2 : ℝ) ^ (p + q) = 2 ^ p * 2 ^ q := zpow_add₀ (by norm_num) p q

theorem two_zpow_le {p q : ℤ} : (2 : ℝ) ^ p ≤ 2 ^ q ↔ p ≤ q := zpow_le_zpow_iff_right₀ (by norm_num)

theorem two_zpow_lt {p q : ℤ} : (2 : ℝ) ^ p < 2 ^ q ↔ p < q := zpow_lt_zpow_iff_right₀ (by norm_num)

/-! ### The integer square root -/

theorem isqrtFrom_spec (k r n : Nat) (h1 : r * r ≤ n) (h2 : n < (r + 2 ^ k) * (r + 2 ^ k)) :
    isqrtFrom k r n * isqrtFrom k r n ≤ n ∧ n < (isqrtFrom k r n + 1) * (isqrtFrom k r n + 1) := by
  induction k generalizing r with
  | zero => exact ⟨h1, h2⟩
  | succ k ih =>
    unfold isqrtFrom
    have : r + 2 ^ (k + 1) = r + 2 ^ k + 2 ^ k := by rw [pow_succ]; omega
    rw [this] at h2
    split
    · exact ih _ (by assumption) h2
    · exact ih _ h1 (by omega)

/-- The integer square root is the floor of the root. -/
theorem isqrt_spec (n : Nat) : isqrt n * isqrt n ≤ n ∧ n < (isqrt n + 1) * (isqrt n + 1) := by
  apply isqrtFrom_spec _ _ _ (by omega)
  rw [Nat.zero_add, ← pow_add]
  exact lt_of_lt_of_le Nat.lt_log2_self (Nat.pow_le_pow_right (by omega) (by omega))

/-! ### Magnitudes -/

/-- The exponent of a ratio. -/
theorem log2Ratio_spec {n d : Nat} (hn : 0 < n) (hd : 0 < d) :
    (2 : ℝ) ^ log2Ratio n d ≤ n / d ∧ (n : ℝ) / d < 2 ^ (log2Ratio n d + 1) := by
  have dpos : (0 : ℝ) < d := by exact_mod_cast hd
  have nlo : (2 : ℝ) ^ (n.log2 : ℤ) ≤ n := by exact_mod_cast Nat.log2_self_le hn.ne'
  have dlo : (2 : ℝ) ^ (d.log2 : ℤ) ≤ d := by exact_mod_cast Nat.log2_self_le hd.ne'
  have nhi : (n : ℝ) < 2 ^ ((n.log2 : ℤ) + 1) := by exact_mod_cast (Nat.lt_log2_self : n < _)
  have dhi : (d : ℝ) < 2 ^ ((d.log2 : ℤ) + 1) := by exact_mod_cast (Nat.lt_log2_self : d < _)
  unfold log2Ratio
  dsimp only
  generalize hl : (n.log2 : ℤ) - d.log2 = l
  have test : d * 2 ^ l.toNat ≤ n * 2 ^ (-l).toNat ↔ (2 : ℝ) ^ l ≤ n / d := by
    rw [two_zpow_toNat, div_le_div_iff₀ (by positivity) dpos, ← Nat.cast_le (α := ℝ)]
    push_cast
    rw [mul_comm (d : ℝ)]
  split
  · refine ⟨test.mp (by assumption), ?_⟩
    rw [div_lt_iff₀ dpos]
    calc (n : ℝ) < 2 ^ ((n.log2 : ℤ) + 1) := nhi
      _ = 2 ^ (l + 1) * 2 ^ (d.log2 : ℤ) := by rw [← two_zpow_add]; congr 1; omega
      _ ≤ 2 ^ (l + 1) * d := mul_le_mul_of_nonneg_left dlo (two_zpow_pos _).le
  · rename_i h
    refine ⟨?_, by rw [sub_add_cancel]; exact not_le.mp (h ∘ test.mpr)⟩
    rw [le_div_iff₀ dpos]
    calc (2 : ℝ) ^ (l - 1) * d ≤ 2 ^ (l - 1) * 2 ^ ((d.log2 : ℤ) + 1) :=
          mul_le_mul_of_nonneg_left dhi.le (two_zpow_pos _).le
      _ = 2 ^ (n.log2 : ℤ) := by rw [← two_zpow_add]; congr 1; omega
      _ ≤ n := nlo

/-- A magnitude that is not zero stands for a positive number. -/
theorem Mag.Is.pos {v : Mag} {x : ℝ} (h : v.Is x) (hn : 0 < v.num) (hd : 0 < v.den) : 0 < x := by
  have : (0 : ℝ) < v.num / v.den := by positivity
  rcases h.1.lt_or_eq with h0 | h0
  · exact h0
  · rw [← h.2, ← h0] at this
    split at this <;> simp at this

/-- The exponent of a magnitude. -/
theorem Mag.log2_spec {v : Mag} {x : ℝ} (h : v.Is x) (hn : 0 < v.num) (hd : 0 < v.den) :
    (2 : ℝ) ^ v.log2 ≤ x ∧ x < 2 ^ (v.log2 + 1) := by
  have hx := h.pos hn hd
  obtain ⟨lo, hi⟩ := log2Ratio_spec hn hd
  unfold Mag.log2
  have hv := h.2
  split
  · rename_i hr
    rw [if_pos hr] at hv
    rw [← hv] at lo hi
    generalize log2Ratio v.num v.den = l at *
    constructor
    · apply (pow_le_pow_iff_left₀ (two_zpow_pos _).le hx.le two_ne_zero).mp
      calc ((2 : ℝ) ^ (l / 2)) ^ 2 = 2 ^ (l / 2 + l / 2) := by rw [two_zpow_add, sq]
        _ ≤ 2 ^ l := two_zpow_le.mpr (by omega)
        _ ≤ x ^ 2 := lo
    · apply lt_of_pow_lt_pow_left₀ 2 (two_zpow_pos _).le
      calc x ^ 2 < 2 ^ (l + 1) := hi
        _ ≤ 2 ^ (l / 2 + 1 + (l / 2 + 1)) := two_zpow_le.mpr (by omega)
        _ = (2 ^ (l / 2 + 1)) ^ 2 := by rw [two_zpow_add, sq]
  · rename_i hr
    rw [if_neg hr] at hv
    rw [hv]
    exact ⟨lo, hi⟩

/-- Division by a power of two as one ratio of integers. -/
theorem ratio_scale (n d : Nat) (q : ℤ) :
    ((n * 2 ^ (-q).toNat : Nat) : ℝ) / (d * 2 ^ q.toNat : Nat) = n / d / 2 ^ q := by
  rw [two_zpow_toNat]
  push_cast
  field_simp

/-- How often a step of the grid goes into a magnitude. -/
theorem Mag.floorAt_spec {v : Mag} {x : ℝ} (h : v.Is x) (hd : 0 < v.den) (q : ℤ) :
    ((v.floorAt q).1 : ℝ) ≤ x / 2 ^ q ∧ x / 2 ^ q < (v.floorAt q).1 + 1 ∧
      ((v.floorAt q).2 = true ↔ x / 2 ^ q = (v.floorAt q).1) := by
  have hv := h.2
  unfold Mag.floorAt
  split
  · rename_i hr
    rw [if_pos hr] at hv
    have hs := ratio_scale v.num v.den (2 * q)
    rw [← hv, show (2 : ℝ) ^ (2 * q) = (2 ^ q) ^ 2 by rw [two_mul, two_zpow_add, sq], ← div_pow] at hs
    have dpos : 0 < v.den * 2 ^ (2 * q).toNat := by positivity
    have ypos : 0 ≤ x / 2 ^ q := div_nonneg h.1 (two_zpow_pos q).le
    dsimp only
    generalize v.num * 2 ^ (-(2 * q)).toNat = n at *
    generalize v.den * 2 ^ (2 * q).toNat = d at *
    generalize x / 2 ^ q = y at *
    obtain ⟨lo, hi⟩ := isqrt_spec (n / d)
    generalize isqrt (n / d) = r at *
    have dR : (0 : ℝ) < d := by exact_mod_cast dpos
    rw [div_eq_iff dR.ne'] at hs
    refine ⟨?_, ?_, ?_⟩
    · apply (pow_le_pow_iff_left₀ (by positivity) ypos two_ne_zero).mp
      rw [← mul_le_mul_iff_left₀ dR, ← hs, sq]
      exact_mod_cast (Nat.le_div_iff_mul_le dpos).mp lo
    · apply lt_of_pow_lt_pow_left₀ 2 (by positivity)
      rw [← mul_lt_mul_iff_left₀ dR, ← hs, sq]
      exact_mod_cast (Nat.div_lt_iff_lt_mul dpos).mp hi
    · rw [beq_iff_eq, ← Nat.cast_inj (R := ℝ), hs]
      push_cast
      rw [← sq, mul_left_inj' dR.ne', pow_left_inj₀ (by positivity) ypos (by omega)]
      exact eq_comm
  · rename_i hr
    rw [if_neg hr] at hv
    have hs := ratio_scale v.num v.den q
    rw [← hv] at hs
    have dpos : 0 < v.den * 2 ^ q.toNat := by positivity
    dsimp only
    generalize v.num * 2 ^ (-q).toNat = n at *
    generalize v.den * 2 ^ q.toNat = d at *
    rw [← hs]
    have dR : (0 : ℝ) < d := by exact_mod_cast dpos
    refine ⟨?_, ?_, ?_⟩
    · rw [le_div_iff₀ dR]
      exact_mod_cast Nat.div_mul_le_self n d
    · rw [div_lt_iff₀ dR]
      exact_mod_cast (Nat.div_lt_iff_lt_mul dpos).mp (Nat.lt_succ_self _)
    · rw [beq_iff_eq, div_eq_iff dR.ne']
      constructor
      · intro h0
        exact_mod_cast (Nat.div_mul_cancel (Nat.dvd_of_mod_eq_zero h0)).symm
      · intro h0
        have h1 : n = n / d * d := by exact_mod_cast h0
        rw [h1]
        exact Nat.mul_mod_left _ _

/-- A cut counts half steps: `k` of them, and whether more is left. -/
theorem Mag.cut_spec {v : Mag} {x : ℝ} (h : v.Is x) (hd : 0 < v.den) (q : ℤ) :
    ∃ k : Nat, (v.cut q).whole = k / 2 ∧ (v.cut q).half = (k % 2 == 1) ∧
      (k : ℝ) ≤ 2 * (x / 2 ^ q) ∧ 2 * (x / 2 ^ q) < k + 1 ∧ ((v.cut q).rest = false ↔ 2 * (x / 2 ^ q) = k) := by
  obtain ⟨h1, h2, h3⟩ := v.floorAt_spec h hd (q - 1)
  have : x / (2 : ℝ) ^ (q - 1) = 2 * (x / 2 ^ q) := by
    rw [zpow_sub_one₀ (by norm_num)]
    field_simp
  rw [this] at h1 h2 h3
  refine ⟨_, rfl, rfl, h1, h2, ?_⟩
  rw [← h3]
  show (!(v.floorAt (q - 1)).2) = false ↔ _
  rw [Bool.not_eq_false']

/-! ### Patterns -/

/-- The exponent and fraction fields of finite numbers end below those of infinity, which end below the sign. -/
theorem Fmt.fields_lt (f : Fmt) : f.expMax * 2 ^ f.fracBits + 2 ^ f.fracBits = 2 ^ (f.width - 1) := by cases f <;> rfl

theorem packBits_toNat {f : Fmt} {neg : Bool} {n : Nat} (h : n < 2 ^ (f.width - 1)) :
    (packBits f neg n).toNat = (if neg then 2 ^ (f.width - 1) else 0) + n := by
  unfold packBits
  rw [BitVec.toNat_ofNat]
  apply Nat.mod_eq_of_lt
  cases f <;> cases neg <;> simp [Fmt.width] at * <;> omega

/-- A packed pattern has no bit above its format, and its fields are those packed. -/
theorem packBits_fields {f : Fmt} {neg : Bool} {ex fr : Nat} (he : ex < 2 ^ f.expBits) (hf : fr < 2 ^ f.fracBits) :
    let b := packBits f neg (ex * 2 ^ f.fracBits + fr)
    f.IsPattern b ∧ signField f b = neg ∧ expField f b = ex ∧ fracField f b = fr := by
  have hn : ex * 2 ^ f.fracBits + fr < 2 ^ (f.width - 1) := by
    cases f <;> simp only [Fmt.width, Fmt.fracBits, Fmt.expBits] at * <;> omega
  have tn := packBits_toNat (neg := neg) hn
  dsimp only
  refine ⟨?_, ?_, ?_, ?_⟩
  · unfold Fmt.IsPattern
    rw [tn]
    cases f <;> cases neg <;> simp [Fmt.width] at * <;> omega
  · unfold signField
    rw [BitVec.getLsbD, tn]
    cases neg
    · simpa using Nat.testBit_lt_two_pow hn
    · rw [if_pos rfl, Nat.testBit_two_pow_add_eq, Nat.testBit_lt_two_pow hn]
      rfl
  · unfold expField
    rw [tn]
    cases f <;> cases neg <;> simp [Fmt.width, Fmt.fracBits, Fmt.expBits] at * <;> omega
  · unfold fracField
    rw [tn]
    cases f <;> cases neg <;> simp [Fmt.width, Fmt.fracBits] at * <;> omega

/-- The number a packed finite pattern stands for. -/
theorem packBits_represents {f : Fmt} {neg : Bool} {ex fr : Nat} (he : ex < f.expMax) (hf : fr < 2 ^ f.fracBits) :
    f.Represents (packBits f neg (ex * 2 ^ f.fracBits + fr)) neg
      ((if neg then -1 else 1) * ((if ex = 0 then fr else 2 ^ f.fracBits + fr : Nat) : ℝ) *
        2 ^ ((max ex 1 : Nat) - f.bias - f.fracBits : ℤ)) := by
  have hx : f.expMax < 2 ^ f.expBits := by cases f <;> decide
  obtain ⟨h1, h2, h3, h4⟩ := packBits_fields (neg := neg) (he.trans hx) hf
  refine ⟨h1, h2, (if neg then -1 else 1) * ((if ex = 0 then fr else 2 ^ f.fracBits + fr : Nat) : ℚ) *
    2 ^ ((max ex 1 : Nat) - f.bias - f.fracBits : ℤ), ?_, ?_⟩
  · unfold unpack
    rw [h2, h3, h4]
    dsimp only
    rw [if_neg he.ne]
    by_cases h0 : ex = 0
    · subst h0
      rfl
    · rw [if_neg h0, if_neg h0, max_eq_left (by omega)]
      rfl
  · cases neg <;> by_cases h0 : ex = 0 <;> simp [h0]

theorem zeroBits_represents (f : Fmt) (neg : Bool) : f.Represents (zeroBits f neg) neg 0 := by
  have := packBits_represents (f := f) (neg := neg) (ex := 0) (fr := 0) (by cases f <;> decide) (by positivity)
  simpa [zeroBits] using this

theorem infBits_represents (f : Fmt) (neg : Bool) : f.RepresentsInf (infBits f neg) neg := by
  obtain ⟨h1, h2, h3, h4⟩ := packBits_fields (f := f) (neg := neg) (ex := f.expMax) (fr := 0)
    (by cases f <;> decide) (by positivity)
  refine ⟨h1, ?_⟩
  show unpack f (packBits f neg (f.expMax * 2 ^ f.fracBits + 0)) = _
  unfold unpack
  rw [h2, h3, h4]
  simp

/-! ### Operands that are no NaN -/

theorem unpack_of_isNaN {f : Fmt} {a : Pattern} (h : isNaN f a = true) : unpack f a = .nan := by
  simp only [isNaN, Bool.and_eq_true, beq_iff_eq, bne_iff_ne] at h
  simp [unpack, h]

theorem isNaN_iff {f : Fmt} {a : Pattern} : isNaN f a = true ↔ unpack f a = .nan := by
  refine ⟨unpack_of_isNaN, fun h => ?_⟩
  unfold unpack at h
  dsimp only at h
  unfold isNaN
  split at h
  · split at h
    · cases h
    · simp [*]
  · split at h <;> cases h

theorem isSignaling_of_not_nan {f : Fmt} {a : Pattern} (h : unpack f a ≠ .nan) : isNaN f a = false ∧ isSignaling f a = false := by
  have : isNaN f a = false := by
    rw [← Bool.not_eq_true]
    exact fun hc => h (unpack_of_isNaN hc)
  exact ⟨this, by simp [isSignaling, this]⟩

/-- The sign of the unpacked value is the sign field. -/
theorem unpack_sign {f : Fmt} {a : Pattern} :
    (∀ {neg m e}, unpack f a = .fin neg m e → neg = signField f a) ∧ (∀ {neg}, unpack f a = .inf neg → neg = signField f a) := by
  unfold unpack
  dsimp only
  constructor
  · intro neg m e h
    split at h
    · split at h <;> cases h
    · split at h <;> (injection h with h1; exact h1.symm)
  · intro neg h
    split at h
    · split at h
      · injection h with h1; exact h1.symm
      · cases h
    · split at h <;> cases h

/-- An operation on operands that are no NaN is its exact result, delivered. -/
theorem arith2_of_not_nan {f : Fmt} {tiny : Tininess} {m : RMode} {op : FVal → FVal → Exact} {a b : Pattern}
    (ha : unpack f a ≠ .nan) (hb : unpack f b ≠ .nan) :
    arith2 f tiny m op a b = deliver f tiny m (op (unpack f a) (unpack f b)) := by
  simp [arith2, nanResult, isSignaling_of_not_nan ha, isSignaling_of_not_nan hb]

theorem fsqrt_of_not_nan {f : Fmt} {tiny : Tininess} {m : RMode} {a : Pattern} (ha : unpack f a ≠ .nan) :
    fsqrt f tiny m a = deliver f tiny m (exactSqrt (unpack f a)) := by
  simp [fsqrt, nanResult, isSignaling_of_not_nan ha]

theorem fma_of_not_nan {f : Fmt} {cfg : FPConfig} {m : RMode} {np na : Bool} {a b c : Pattern} (ha : unpack f a ≠ .nan)
    (hb : unpack f b ≠ .nan) (hc : unpack f c ≠ .nan) :
    fma f cfg m np na a b c = deliver f cfg.tininess m (exactFma m np na (unpack f a) (unpack f b) (unpack f c)) := by
  simp [fma, nanResult, isSignaling_of_not_nan ha, isSignaling_of_not_nan hb, isSignaling_of_not_nan hc]

/-! ### Exact values -/

/-- `m * 2^e` as a magnitude. -/
theorem Mag.dyadic_is (m : Nat) (e : ℤ) : (Mag.dyadic m e).Is (m * 2 ^ e) := by
  refine ⟨by positivity, ?_⟩
  show (m * 2 ^ e : ℝ) = ((m * 2 ^ e.toNat : Nat) : ℝ) / ((2 ^ (-e).toNat : Nat) : ℝ)
  rw [two_zpow_toNat]
  push_cast
  ring

theorem Mag.dyadic_num_pos {m : Nat} (h : m ≠ 0) (e : ℤ) : 0 < (Mag.dyadic m e).num := by
  show 0 < m * 2 ^ e.toNat
  positivity

theorem Mag.dyadic_den_pos (m : Nat) (e : ℤ) : 0 < (Mag.dyadic m e).den := by
  show 0 < 2 ^ (-e).toNat
  positivity

/-- Aligning to a smaller exponent keeps the value. -/
theorem alignTo_value {e0 e : ℤ} (neg : Bool) (m : Nat) (h : e0 ≤ e) :
    (alignTo e0 neg m e : ℚ) * 2 ^ e0 = (if neg then -1 else 1) * m * (2 : ℚ) ^ e := by
  have : (2 : ℚ) ^ e = 2 ^ (e - e0).toNat * 2 ^ e0 := by
    rw [← zpow_natCast, ← zpow_add₀ (by norm_num)]
    congr 1
    omega
  rw [this]
  unfold alignTo
  cases neg <;> simp <;> ring

end Sys2Proof.Machine
end

