-- ==== Sys2Proof/Laws/State.lean ====
section
/-! SUPPORT. One lemma per field per update of the state, so that no proof unfolds a record update. -/

namespace Sys2Proof.Machine

/-! ### writeX -/

@[simp] theorem State.writeX_cfg (s : State) (rd : Reg) (v : XWord) : (s.writeX rd v).cfg = s.cfg := by unfold State.writeX; split <;> rfl
@[simp] theorem State.writeX_f (s : State) (rd : Reg) (v : XWord) : (s.writeX rd v).f = s.f := by unfold State.writeX; split <;> rfl
@[simp] theorem State.writeX_pc (s : State) (rd : Reg) (v : XWord) : (s.writeX rd v).pc = s.pc := by unfold State.writeX; split <;> rfl
@[simp] theorem State.writeX_fsr (s : State) (rd : Reg) (v : XWord) : (s.writeX rd v).fsr = s.fsr := by unfold State.writeX; split <;> rfl
@[simp] theorem State.writeX_cycle (s : State) (rd : Reg) (v : XWord) : (s.writeX rd v).cycle = s.cycle := by unfold State.writeX; split <;> rfl
@[simp] theorem State.writeX_time (s : State) (rd : Reg) (v : XWord) : (s.writeX rd v).time = s.time := by unfold State.writeX; split <;> rfl
@[simp] theorem State.writeX_instret (s : State) (rd : Reg) (v : XWord) : (s.writeX rd v).instret = s.instret := by unfold State.writeX; split <;> rfl
@[simp] theorem State.writeX_mem (s : State) (rd : Reg) (v : XWord) : (s.writeX rd v).mem = s.mem := by unfold State.writeX; split <;> rfl
@[simp] theorem State.writeX_stale (s : State) (rd : Reg) (v : XWord) : (s.writeX rd v).stale = s.stale := by unfold State.writeX; split <;> rfl
@[simp] theorem State.writeX_halted (s : State) (rd : Reg) (v : XWord) : (s.writeX rd v).halted = s.halted := by unfold State.writeX; split <;> rfl
@[simp] theorem State.writeX_handler (s : State) (rd : Reg) (v : XWord) : (s.writeX rd v).handler = s.handler := by unfold State.writeX; split <;> rfl
@[simp] theorem State.writeX_traps (s : State) (rd : Reg) (v : XWord) : (s.writeX rd v).traps = s.traps := by unfold State.writeX; split <;> rfl
@[simp] theorem State.writeX_draws (s : State) (rd : Reg) (v : XWord) : (s.writeX rd v).draws = s.draws := by unfold State.writeX; split <;> rfl

/-! ### writeF -/

@[simp] theorem State.writeF_cfg (s : State) (rd : Reg) (v : FReg) : (s.writeF rd v).cfg = s.cfg := rfl
@[simp] theorem State.writeF_x (s : State) (rd : Reg) (v : FReg) : (s.writeF rd v).x = s.x := rfl
@[simp] theorem State.writeF_f (s : State) (rd : Reg) (v : FReg) : (s.writeF rd v).f = s.f.set rd.toNat v := rfl
@[simp] theorem State.writeF_pc (s : State) (rd : Reg) (v : FReg) : (s.writeF rd v).pc = s.pc := rfl
@[simp] theorem State.writeF_fsr (s : State) (rd : Reg) (v : FReg) : (s.writeF rd v).fsr = s.fsr := rfl
@[simp] theorem State.writeF_cycle (s : State) (rd : Reg) (v : FReg) : (s.writeF rd v).cycle = s.cycle := rfl
@[simp] theorem State.writeF_time (s : State) (rd : Reg) (v : FReg) : (s.writeF rd v).time = s.time := rfl
@[simp] theorem State.writeF_instret (s : State) (rd : Reg) (v : FReg) : (s.writeF rd v).instret = s.instret := rfl
@[simp] theorem State.writeF_mem (s : State) (rd : Reg) (v : FReg) : (s.writeF rd v).mem = s.mem := rfl
@[simp] theorem State.writeF_stale (s : State) (rd : Reg) (v : FReg) : (s.writeF rd v).stale = s.stale := rfl
@[simp] theorem State.writeF_halted (s : State) (rd : Reg) (v : FReg) : (s.writeF rd v).halted = s.halted := rfl
@[simp] theorem State.writeF_handler (s : State) (rd : Reg) (v : FReg) : (s.writeF rd v).handler = s.handler := rfl
@[simp] theorem State.writeF_traps (s : State) (rd : Reg) (v : FReg) : (s.writeF rd v).traps = s.traps := rfl
@[simp] theorem State.writeF_draws (s : State) (rd : Reg) (v : FReg) : (s.writeF rd v).draws = s.draws := rfl

/-! ### writeFsr -/

@[simp] theorem State.writeFsr_cfg (s : State) (v : BitVec 32) : (s.writeFsr v).cfg = s.cfg := rfl
@[simp] theorem State.writeFsr_x (s : State) (v : BitVec 32) : (s.writeFsr v).x = s.x := rfl
@[simp] theorem State.writeFsr_f (s : State) (v : BitVec 32) : (s.writeFsr v).f = s.f := rfl
@[simp] theorem State.writeFsr_pc (s : State) (v : BitVec 32) : (s.writeFsr v).pc = s.pc := rfl
@[simp] theorem State.writeFsr_fsr (s : State) (v : BitVec 32) : (s.writeFsr v).fsr = v &&& fsrMask := rfl
@[simp] theorem State.writeFsr_cycle (s : State) (v : BitVec 32) : (s.writeFsr v).cycle = s.cycle := rfl
@[simp] theorem State.writeFsr_time (s : State) (v : BitVec 32) : (s.writeFsr v).time = s.time := rfl
@[simp] theorem State.writeFsr_instret (s : State) (v : BitVec 32) : (s.writeFsr v).instret = s.instret := rfl
@[simp] theorem State.writeFsr_mem (s : State) (v : BitVec 32) : (s.writeFsr v).mem = s.mem := rfl
@[simp] theorem State.writeFsr_stale (s : State) (v : BitVec 32) : (s.writeFsr v).stale = s.stale := rfl
@[simp] theorem State.writeFsr_halted (s : State) (v : BitVec 32) : (s.writeFsr v).halted = s.halted := rfl
@[simp] theorem State.writeFsr_handler (s : State) (v : BitVec 32) : (s.writeFsr v).handler = s.handler := rfl
@[simp] theorem State.writeFsr_traps (s : State) (v : BitVec 32) : (s.writeFsr v).traps = s.traps := rfl
@[simp] theorem State.writeFsr_draws (s : State) (v : BitVec 32) : (s.writeFsr v).draws = s.draws := rfl

/-! ### accrue -/

@[simp] theorem State.accrue_cfg (s : State) (fl : FFlags) : (s.accrue fl).cfg = s.cfg := rfl
@[simp] theorem State.accrue_x (s : State) (fl : FFlags) : (s.accrue fl).x = s.x := rfl
@[simp] theorem State.accrue_f (s : State) (fl : FFlags) : (s.accrue fl).f = s.f := rfl
@[simp] theorem State.accrue_pc (s : State) (fl : FFlags) : (s.accrue fl).pc = s.pc := rfl
@[simp] theorem State.accrue_fsr (s : State) (fl : FFlags) : (s.accrue fl).fsr = (s.fsr ||| fl.bits.setWidth 32) &&& fsrMask := rfl
@[simp] theorem State.accrue_cycle (s : State) (fl : FFlags) : (s.accrue fl).cycle = s.cycle := rfl
@[simp] theorem State.accrue_time (s : State) (fl : FFlags) : (s.accrue fl).time = s.time := rfl
@[simp] theorem State.accrue_instret (s : State) (fl : FFlags) : (s.accrue fl).instret = s.instret := rfl
@[simp] theorem State.accrue_mem (s : State) (fl : FFlags) : (s.accrue fl).mem = s.mem := rfl
@[simp] theorem State.accrue_stale (s : State) (fl : FFlags) : (s.accrue fl).stale = s.stale := rfl
@[simp] theorem State.accrue_halted (s : State) (fl : FFlags) : (s.accrue fl).halted = s.halted := rfl
@[simp] theorem State.accrue_handler (s : State) (fl : FFlags) : (s.accrue fl).handler = s.handler := rfl
@[simp] theorem State.accrue_traps (s : State) (fl : FFlags) : (s.accrue fl).traps = s.traps := rfl
@[simp] theorem State.accrue_draws (s : State) (fl : FFlags) : (s.accrue fl).draws = s.draws := rfl

/-! ### retireTo -/

@[simp] theorem State.retireTo_cfg (s : State) (target : XWord) : (s.retireTo target).cfg = s.cfg := rfl
@[simp] theorem State.retireTo_x (s : State) (target : XWord) : (s.retireTo target).x = s.x := rfl
@[simp] theorem State.retireTo_f (s : State) (target : XWord) : (s.retireTo target).f = s.f := rfl
@[simp] theorem State.retireTo_pc (s : State) (target : XWord) : (s.retireTo target).pc = target := rfl
@[simp] theorem State.retireTo_fsr (s : State) (target : XWord) : (s.retireTo target).fsr = s.fsr := rfl
@[simp] theorem State.retireTo_cycle (s : State) (target : XWord) : (s.retireTo target).cycle = s.cycle := rfl
@[simp] theorem State.retireTo_time (s : State) (target : XWord) : (s.retireTo target).time = s.time := rfl
@[simp] theorem State.retireTo_instret (s : State) (target : XWord) : (s.retireTo target).instret = s.instret + 1 := rfl
@[simp] theorem State.retireTo_mem (s : State) (target : XWord) : (s.retireTo target).mem = s.mem := rfl
@[simp] theorem State.retireTo_stale (s : State) (target : XWord) : (s.retireTo target).stale = s.stale := rfl
@[simp] theorem State.retireTo_halted (s : State) (target : XWord) : (s.retireTo target).halted = s.halted := rfl
@[simp] theorem State.retireTo_handler (s : State) (target : XWord) : (s.retireTo target).handler = s.handler := rfl
@[simp] theorem State.retireTo_traps (s : State) (target : XWord) : (s.retireTo target).traps = s.traps := rfl
@[simp] theorem State.retireTo_draws (s : State) (target : XWord) : (s.retireTo target).draws = s.draws := rfl

/-! ### retire -/

@[simp] theorem State.retire_cfg (s : State) : (s.retire).cfg = s.cfg := rfl
@[simp] theorem State.retire_x (s : State) : (s.retire).x = s.x := rfl
@[simp] theorem State.retire_f (s : State) : (s.retire).f = s.f := rfl
@[simp] theorem State.retire_pc (s : State) : (s.retire).pc = s.pcPlus4 := rfl
@[simp] theorem State.retire_fsr (s : State) : (s.retire).fsr = s.fsr := rfl
@[simp] theorem State.retire_cycle (s : State) : (s.retire).cycle = s.cycle := rfl
@[simp] theorem State.retire_time (s : State) : (s.retire).time = s.time := rfl
@[simp] theorem State.retire_instret (s : State) : (s.retire).instret = s.instret + 1 := rfl
@[simp] theorem State.retire_mem (s : State) : (s.retire).mem = s.mem := rfl
@[simp] theorem State.retire_stale (s : State) : (s.retire).stale = s.stale := rfl
@[simp] theorem State.retire_halted (s : State) : (s.retire).halted = s.halted := rfl
@[simp] theorem State.retire_handler (s : State) : (s.retire).handler = s.handler := rfl
@[simp] theorem State.retire_traps (s : State) : (s.retire).traps = s.traps := rfl
@[simp] theorem State.retire_draws (s : State) : (s.retire).draws = s.draws := rfl

/-! ### storeByte -/

@[simp] theorem State.storeByte_cfg (s : State) (a : Nat) (b : Byte) : (s.storeByte a b).cfg = s.cfg := rfl
@[simp] theorem State.storeByte_x (s : State) (a : Nat) (b : Byte) : (s.storeByte a b).x = s.x := rfl
@[simp] theorem State.storeByte_f (s : State) (a : Nat) (b : Byte) : (s.storeByte a b).f = s.f := rfl
@[simp] theorem State.storeByte_pc (s : State) (a : Nat) (b : Byte) : (s.storeByte a b).pc = s.pc := rfl
@[simp] theorem State.storeByte_fsr (s : State) (a : Nat) (b : Byte) : (s.storeByte a b).fsr = s.fsr := rfl
@[simp] theorem State.storeByte_cycle (s : State) (a : Nat) (b : Byte) : (s.storeByte a b).cycle = s.cycle := rfl
@[simp] theorem State.storeByte_time (s : State) (a : Nat) (b : Byte) : (s.storeByte a b).time = s.time := rfl
@[simp] theorem State.storeByte_instret (s : State) (a : Nat) (b : Byte) : (s.storeByte a b).instret = s.instret := rfl
@[simp] theorem State.storeByte_mem (s : State) (a : Nat) (b : Byte) : (s.storeByte a b).mem = Memory.write s.mem a b := rfl
@[simp] theorem State.storeByte_stale (s : State) (a : Nat) (b : Byte) : (s.storeByte a b).stale = s.remember a := rfl
@[simp] theorem State.storeByte_halted (s : State) (a : Nat) (b : Byte) : (s.storeByte a b).halted = s.halted := rfl
@[simp] theorem State.storeByte_handler (s : State) (a : Nat) (b : Byte) : (s.storeByte a b).handler = s.handler := rfl
@[simp] theorem State.storeByte_traps (s : State) (a : Nat) (b : Byte) : (s.storeByte a b).traps = s.traps := rfl
@[simp] theorem State.storeByte_draws (s : State) (a : Nat) (b : Byte) : (s.storeByte a b).draws = s.draws := rfl

/-! ### syncFetch -/

@[simp] theorem State.syncFetch_cfg (s : State) : (s.syncFetch).cfg = s.cfg := rfl
@[simp] theorem State.syncFetch_x (s : State) : (s.syncFetch).x = s.x := rfl
@[simp] theorem State.syncFetch_f (s : State) : (s.syncFetch).f = s.f := rfl
@[simp] theorem State.syncFetch_pc (s : State) : (s.syncFetch).pc = s.pc := rfl
@[simp] theorem State.syncFetch_fsr (s : State) : (s.syncFetch).fsr = s.fsr := rfl
@[simp] theorem State.syncFetch_cycle (s : State) : (s.syncFetch).cycle = s.cycle := rfl
@[simp] theorem State.syncFetch_time (s : State) : (s.syncFetch).time = s.time := rfl
@[simp] theorem State.syncFetch_instret (s : State) : (s.syncFetch).instret = s.instret := rfl
@[simp] theorem State.syncFetch_mem (s : State) : (s.syncFetch).mem = s.mem := rfl
@[simp] theorem State.syncFetch_stale (s : State) : (s.syncFetch).stale = [] := rfl
@[simp] theorem State.syncFetch_halted (s : State) : (s.syncFetch).halted = s.halted := rfl
@[simp] theorem State.syncFetch_handler (s : State) : (s.syncFetch).handler = s.handler := rfl
@[simp] theorem State.syncFetch_traps (s : State) : (s.syncFetch).traps = s.traps := rfl
@[simp] theorem State.syncFetch_draws (s : State) : (s.syncFetch).draws = s.draws := rfl

/-! ### tick -/

@[simp] theorem State.tick_cfg (s : State) : (s.tick).cfg = s.cfg := rfl
@[simp] theorem State.tick_x (s : State) : (s.tick).x = s.x := rfl
@[simp] theorem State.tick_f (s : State) : (s.tick).f = s.f := rfl
@[simp] theorem State.tick_pc (s : State) : (s.tick).pc = s.pc := rfl
@[simp] theorem State.tick_fsr (s : State) : (s.tick).fsr = s.fsr := rfl
@[simp] theorem State.tick_cycle (s : State) : (s.tick).cycle = advanceClock s.cfg.xlen s.cycle (Config.cycleTicks s.draws) := rfl
@[simp] theorem State.tick_time (s : State) : (s.tick).time = advanceClock s.cfg.xlen s.time (Config.timeTicks s.draws) := rfl
@[simp] theorem State.tick_instret (s : State) : (s.tick).instret = s.instret := rfl
@[simp] theorem State.tick_mem (s : State) : (s.tick).mem = s.mem := rfl
@[simp] theorem State.tick_stale (s : State) : (s.tick).stale = s.stale := rfl
@[simp] theorem State.tick_halted (s : State) : (s.tick).halted = s.halted := rfl
@[simp] theorem State.tick_handler (s : State) : (s.tick).handler = s.handler := rfl
@[simp] theorem State.tick_traps (s : State) : (s.tick).traps = s.traps := rfl
@[simp] theorem State.tick_draws (s : State) : (s.tick).draws = s.draws + 1 := rfl

/-! ### placeWord -/

@[simp] theorem State.placeWord_cfg (s : State) (w : IWord) : (s.placeWord w).cfg = s.cfg := rfl
@[simp] theorem State.placeWord_x (s : State) (w : IWord) : (s.placeWord w).x = s.x := rfl
@[simp] theorem State.placeWord_f (s : State) (w : IWord) : (s.placeWord w).f = s.f := rfl
@[simp] theorem State.placeWord_pc (s : State) (w : IWord) : (s.placeWord w).pc = s.pc := rfl
@[simp] theorem State.placeWord_fsr (s : State) (w : IWord) : (s.placeWord w).fsr = s.fsr := rfl
@[simp] theorem State.placeWord_cycle (s : State) (w : IWord) : (s.placeWord w).cycle = s.cycle := rfl
@[simp] theorem State.placeWord_time (s : State) (w : IWord) : (s.placeWord w).time = s.time := rfl
@[simp] theorem State.placeWord_instret (s : State) (w : IWord) : (s.placeWord w).instret = s.instret := rfl
@[simp] theorem State.placeWord_halted (s : State) (w : IWord) : (s.placeWord w).halted = s.halted := rfl
@[simp] theorem State.placeWord_handler (s : State) (w : IWord) : (s.placeWord w).handler = s.handler := rfl
@[simp] theorem State.placeWord_traps (s : State) (w : IWord) : (s.placeWord w).traps = s.traps := rfl
@[simp] theorem State.placeWord_draws (s : State) (w : IWord) : (s.placeWord w).draws = s.draws := rfl

/-! ### Several bytes -/

@[simp] theorem State.storeBytes_cfg (s : State) (cells : List Host.Cell) : (s.storeBytes cells).cfg = s.cfg := by
  induction cells generalizing s with
  | nil => rfl
  | cons c cs ih => exact (ih (s.storeByte c.1 c.2)).trans rfl

@[simp] theorem State.memWrite_cfg (s : State) (a : XWord) (n : Nat) (v : BitVec 64) : (s.memWrite a n v).cfg = s.cfg :=
  State.storeBytes_cfg s _

@[simp] theorem State.storeBytes_x (s : State) (cells : List Host.Cell) : (s.storeBytes cells).x = s.x := by
  induction cells generalizing s with
  | nil => rfl
  | cons c cs ih => exact (ih (s.storeByte c.1 c.2)).trans rfl

@[simp] theorem State.memWrite_x (s : State) (a : XWord) (n : Nat) (v : BitVec 64) : (s.memWrite a n v).x = s.x :=
  State.storeBytes_x s _

@[simp] theorem State.storeBytes_f (s : State) (cells : List Host.Cell) : (s.storeBytes cells).f = s.f := by
  induction cells generalizing s with
  | nil => rfl
  | cons c cs ih => exact (ih (s.storeByte c.1 c.2)).trans rfl

@[simp] theorem State.memWrite_f (s : State) (a : XWord) (n : Nat) (v : BitVec 64) : (s.memWrite a n v).f = s.f :=
  State.storeBytes_f s _

@[simp] theorem State.storeBytes_pc (s : State) (cells : List Host.Cell) : (s.storeBytes cells).pc = s.pc := by
  induction cells generalizing s with
  | nil => rfl
  | cons c cs ih => exact (ih (s.storeByte c.1 c.2)).trans rfl

@[simp] theorem State.memWrite_pc (s : State) (a : XWord) (n : Nat) (v : BitVec 64) : (s.memWrite a n v).pc = s.pc :=
  State.storeBytes_pc s _

@[simp] theorem State.storeBytes_fsr (s : State) (cells : List Host.Cell) : (s.storeBytes cells).fsr = s.fsr := by
  induction cells generalizing s with
  | nil => rfl
  | cons c cs ih => exact (ih (s.storeByte c.1 c.2)).trans rfl

@[simp] theorem State.memWrite_fsr (s : State) (a : XWord) (n : Nat) (v : BitVec 64) : (s.memWrite a n v).fsr = s.fsr :=
  State.storeBytes_fsr s _

@[simp] theorem State.storeBytes_cycle (s : State) (cells : List Host.Cell) : (s.storeBytes cells).cycle = s.cycle := by
  induction cells generalizing s with
  | nil => rfl
  | cons c cs ih => exact (ih (s.storeByte c.1 c.2)).trans rfl

@[simp] theorem State.memWrite_cycle (s : State) (a : XWord) (n : Nat) (v : BitVec 64) : (s.memWrite a n v).cycle = s.cycle :=
  State.storeBytes_cycle s _

@[simp] theorem State.storeBytes_time (s : State) (cells : List Host.Cell) : (s.storeBytes cells).time = s.time := by
  induction cells generalizing s with
  | nil => rfl
  | cons c cs ih => exact (ih (s.storeByte c.1 c.2)).trans rfl

@[simp] theorem State.memWrite_time (s : State) (a : XWord) (n : Nat) (v : BitVec 64) : (s.memWrite a n v).time = s.time :=
  State.storeBytes_time s _

@[simp] theorem State.storeBytes_instret (s : State) (cells : List Host.Cell) : (s.storeBytes cells).instret = s.instret := by
  induction cells generalizing s with
  | nil => rfl
  | cons c cs ih => exact (ih (s.storeByte c.1 c.2)).trans rfl

@[simp] theorem State.memWrite_instret (s : State) (a : XWord) (n : Nat) (v : BitVec 64) : (s.memWrite a n v).instret = s.instret :=
  State.storeBytes_instret s _

@[simp] theorem State.storeBytes_halted (s : State) (cells : List Host.Cell) : (s.storeBytes cells).halted = s.halted := by
  induction cells generalizing s with
  | nil => rfl
  | cons c cs ih => exact (ih (s.storeByte c.1 c.2)).trans rfl

@[simp] theorem State.memWrite_halted (s : State) (a : XWord) (n : Nat) (v : BitVec 64) : (s.memWrite a n v).halted = s.halted :=
  State.storeBytes_halted s _

@[simp] theorem State.storeBytes_handler (s : State) (cells : List Host.Cell) : (s.storeBytes cells).handler = s.handler := by
  induction cells generalizing s with
  | nil => rfl
  | cons c cs ih => exact (ih (s.storeByte c.1 c.2)).trans rfl

@[simp] theorem State.memWrite_handler (s : State) (a : XWord) (n : Nat) (v : BitVec 64) : (s.memWrite a n v).handler = s.handler :=
  State.storeBytes_handler s _

@[simp] theorem State.storeBytes_traps (s : State) (cells : List Host.Cell) : (s.storeBytes cells).traps = s.traps := by
  induction cells generalizing s with
  | nil => rfl
  | cons c cs ih => exact (ih (s.storeByte c.1 c.2)).trans rfl

@[simp] theorem State.memWrite_traps (s : State) (a : XWord) (n : Nat) (v : BitVec 64) : (s.memWrite a n v).traps = s.traps :=
  State.storeBytes_traps s _

@[simp] theorem State.storeBytes_draws (s : State) (cells : List Host.Cell) : (s.storeBytes cells).draws = s.draws := by
  induction cells generalizing s with
  | nil => rfl
  | cons c cs ih => exact (ih (s.storeByte c.1 c.2)).trans rfl

@[simp] theorem State.memWrite_draws (s : State) (a : XWord) (n : Nat) (v : BitVec 64) : (s.memWrite a n v).draws = s.draws :=
  State.storeBytes_draws s _

/-! ### The register files -/

/-- What `x[r]` reads after a write of `x[rd]`: the value, unless it is `x[0]` (R21). -/
theorem State.readX_writeX (s : State) (rd r : Reg) (v : XWord) :
    (s.writeX rd v).readX r = if r = rd ∧ rd ≠ 0 then trunc s.cfg.xlen v else s.readX r := by
  have trunc_trunc : trunc s.cfg.xlen (trunc s.cfg.xlen v) = trunc s.cfg.xlen v := by
    unfold trunc; split <;> simp
  unfold State.writeX
  by_cases h0 : rd = 0
  · rw [if_pos h0, if_neg (fun h => h.2 h0)]
  · rw [if_neg h0]
    unfold State.readX
    by_cases hr : r = rd
    · subst hr
      rw [if_neg h0, if_pos ⟨rfl, h0⟩, Vector.getElem_set_self, trunc_trunc]
    · have hne : rd.toNat ≠ r.toNat := fun h => hr (BitVec.eq_of_toNat_eq h.symm)
      rw [Vector.getElem_set_ne _ _ hne, if_neg (show ¬(r = rd ∧ rd ≠ 0) from fun h => hr h.1)]

/-- What `f[r]` holds after a write of `f[rd]`. -/
theorem State.readF_writeF (s : State) (rd r : Reg) (v : FReg) :
    (s.writeF rd v).readF r = if r = rd then v else s.readF r := by
  unfold State.readF State.writeF
  by_cases hr : r = rd
  · subst hr; simp
  · have hne : rd.toNat ≠ r.toNat := fun h => hr (BitVec.eq_of_toNat_eq h.symm)
    simp [hr, Vector.getElem_set_ne, hne]

@[simp] theorem State.readX_zero (s : State) : s.readX 0 = 0 := rfl

/-- Reading an x register depends on the x file and the variant alone. -/
theorem State.readX_congr {s t : State} (hc : t.cfg = s.cfg) (hx : t.x = s.x) (r : Reg) : t.readX r = s.readX r := by
  unfold State.readX; rw [hc, hx]

/-- Reading an f register depends on the f file alone. -/
theorem State.readF_congr {s t : State} (hf : t.f = s.f) (r : Reg) : t.readF r = s.readF r := by
  unfold State.readF; rw [hf]

end Sys2Proof.Machine
end

