-- ==== Sys2Proof/Laws/Memory.lean ====
section
/-! SUPPORT. Memory: what a read gives after a write, that every operation keeps the canonical form, and what a store
changes. -/

namespace Sys2Proof.Machine

/-! ### Rising lists -/

theorem Memory.rising_iff (m : Memory) : Memory.rising m = true ↔ m.Pairwise fun c c' => c.1 < c'.1 := by
  simp [Memory.rising]

theorem Memory.rising_cons (c : Host.Cell) (m : Memory) :
    Memory.rising (c :: m) = true ↔ (∀ d ∈ m, c.1 < d.1) ∧ Memory.rising m = true := by
  simp [Memory.rising, List.pairwise_cons]

theorem Memory.wf_iff (m : Memory) : Memory.wf m = true ↔ Memory.rising m = true ∧ ∀ c ∈ m, c.2 ≠ 0 := by
  simp [Memory.wf]

/-! ### Membership -/

theorem Memory.mem_erase (m : Memory) (a : Nat) (c : Host.Cell) : c ∈ Memory.erase m a ↔ c ∈ m ∧ c.1 ≠ a := by
  simp [Memory.erase]

/-- Every entry after an insertion is the new one or an old one. -/
theorem Memory.of_mem_insert (m : Memory) (a : Nat) (b : Byte) (c : Host.Cell) (h : c ∈ Memory.insert m a b) :
    c = (a, b) ∨ c ∈ m := by
  induction m with
  | nil => simpa [Memory.insert] using h
  | cons d m ih =>
    obtain ⟨k, v⟩ := d
    unfold Memory.insert at h
    split at h
    · simpa using h
    · split at h
      · rcases List.mem_cons.mp h with h | h
        · exact .inl h
        · exact .inr (List.mem_cons_of_mem _ h)
      · rcases List.mem_cons.mp h with h | h
        · exact .inr (h ▸ List.mem_cons_self)
        · exact (ih h).imp id (List.mem_cons_of_mem _)

/-- Every entry after a write is the new one, a byte other than 0, or an old one. -/
theorem Memory.of_mem_write (m : Memory) (a : Nat) (b : Byte) (c : Host.Cell) (h : c ∈ Memory.write m a b) :
    (c = (a, b) ∧ b ≠ 0) ∨ c ∈ m := by
  unfold Memory.write at h
  split at h
  · exact .inr ((Memory.mem_erase m a c).mp h).1
  · exact (Memory.of_mem_insert m a b c h).imp (fun h => ⟨h, by assumption⟩) id

/-! ### Canonical form -/

theorem Memory.rising_erase (m : Memory) (a : Nat) (h : Memory.rising m = true) : Memory.rising (Memory.erase m a) = true := by
  rw [Memory.rising_iff] at h ⊢
  exact h.filter _

theorem Memory.rising_insert (m : Memory) (a : Nat) (b : Byte) (h : Memory.rising m = true) :
    Memory.rising (Memory.insert m a b) = true := by
  induction m with
  | nil => rfl
  | cons d m ih =>
    obtain ⟨k, v⟩ := d
    obtain ⟨hk, hm⟩ := (Memory.rising_cons _ _).mp h
    unfold Memory.insert
    split
    · rename_i hlt
      refine (Memory.rising_cons _ _).mpr ⟨fun d hd => ?_, h⟩
      rcases List.mem_cons.mp hd with rfl | hd
      · exact hlt
      · exact hlt.trans (hk d hd)
    · split
      · rename_i he
        exact (Memory.rising_cons _ _).mpr ⟨fun d hd => he ▸ hk d hd, hm⟩
      · refine (Memory.rising_cons _ _).mpr ⟨fun d hd => ?_, ih hm⟩
        rcases Memory.of_mem_insert m a b d hd with rfl | hd
        · show k < a; omega
        · exact hk d hd

/-- A write keeps the canonical form. -/
theorem Memory.wf_write (m : Memory) (a : Nat) (b : Byte) (h : Memory.wf m = true) : Memory.wf (Memory.write m a b) = true := by
  rw [Memory.wf_iff] at h ⊢
  refine ⟨?_, fun c hc => ?_⟩
  · unfold Memory.write
    split
    · exact Memory.rising_erase m a h.1
    · exact Memory.rising_insert m a b h.1
  · rcases Memory.of_mem_write m a b c hc with ⟨rfl, hb⟩ | hc
    · exact hb
    · exact h.2 c hc

/-- The empty memory has the canonical form. -/
theorem Memory.wf_nil : Memory.wf [] = true := rfl

/-- Memory after reset has the canonical form. -/
theorem reset_mem_wf : Memory.wf State.reset.mem = true := rfl

/-! ### Reading after writing -/

theorem Memory.read_insert (m : Memory) (a a' : Nat) (b : Byte) :
    Memory.read (Memory.insert m a b) a' = if a = a' then b else Memory.read m a' := by
  induction m with
  | nil => rfl
  | cons d m ih =>
    obtain ⟨k, v⟩ := d
    unfold Memory.insert
    split
    · rfl
    · split
      · rename_i he
        subst he
        simp only [Memory.read]
        split <;> rfl
      · rename_i hne
        simp only [Memory.read, ih]
        split
        · rename_i hk
          rw [if_neg (fun h => hne (h.trans hk.symm))]
        · rfl

theorem Memory.read_erase (m : Memory) (a a' : Nat) :
    Memory.read (Memory.erase m a) a' = if a = a' then 0 else Memory.read m a' := by
  induction m with
  | nil => simp [Memory.erase, Memory.read]
  | cons d m ih =>
    obtain ⟨k, v⟩ := d
    unfold Memory.erase at ih ⊢
    by_cases hk : k = a
    · subst hk
      simp only [List.filter_cons, bne_self_eq_false, Bool.false_eq_true, if_false, ih, Memory.read]
      split <;> rfl
    · simp only [List.filter_cons, bne_iff_ne.mpr hk, if_true, Memory.read, ih]
      split
      · rename_i h
        rw [if_neg (fun ha => hk (h.trans ha.symm))]
      · rfl

/-- What a byte reads after a write. -/
theorem Memory.read_write (m : Memory) (a a' : Nat) (b : Byte) :
    Memory.read (Memory.write m a b) a' = if a = a' then b else Memory.read m a' := by
  unfold Memory.write
  split
  · rename_i hb
    rw [Memory.read_erase, hb]
  · exact Memory.read_insert m a a' b

theorem Memory.read_write_self (m : Memory) (a : Nat) (b : Byte) : Memory.read (Memory.write m a b) a = b := by
  rw [Memory.read_write, if_pos rfl]

theorem Memory.read_write_of_ne (m : Memory) {a a' : Nat} (b : Byte) (h : a ≠ a') :
    Memory.read (Memory.write m a b) a' = Memory.read m a' := by
  rw [Memory.read_write, if_neg h]

/-! ### Stores -/

theorem State.storeBytes_nil (s : State) : s.storeBytes [] = s := rfl

theorem State.storeBytes_cons (s : State) (c : Host.Cell) (cs : List Host.Cell) :
    s.storeBytes (c :: cs) = (s.storeByte c.1 c.2).storeBytes cs := rfl

/-- Storing bytes keeps the canonical form. -/
theorem State.storeBytes_wf (s : State) (cells : List Host.Cell) (h : Memory.wf s.mem = true) :
    Memory.wf (s.storeBytes cells).mem = true := by
  induction cells generalizing s with
  | nil => exact h
  | cons c cs ih => exact ih _ (Memory.wf_write _ _ _ h)

/-- A store keeps the canonical form. -/
theorem State.memWrite_wf (s : State) (a : XWord) (n : Nat) (v : BitVec 64) (h : Memory.wf s.mem = true) :
    Memory.wf (s.memWrite a n v).mem = true :=
  s.storeBytes_wf _ h

/-- Placing an instruction word keeps the canonical form. -/
theorem State.placeWord_wf (s : State) (w : IWord) (h : Memory.wf s.mem = true) : Memory.wf (s.placeWord w).mem = true := by
  have foldWf : ∀ (cells : List Host.Cell) (m : Memory), Memory.wf m = true →
      Memory.wf (cells.foldl (fun m c => Memory.write m c.1 c.2) m) = true := by
    intro cells
    induction cells with
    | nil => exact fun m h => h
    | cons c cs ih => exact fun m h => ih _ (Memory.wf_write _ _ _ h)
  exact foldWf _ _ h

/-- What a byte reads after bytes are stored: the last of them stored at its address, else what it held. -/
theorem State.read_storeBytes (s : State) (cells : List Host.Cell) (a : Nat) :
    Memory.read (s.storeBytes cells).mem a =
      match cells.reverse.find? (fun c => c.1 == a) with
      | some c => c.2
      | none => Memory.read s.mem a := by
  induction cells generalizing s with
  | nil => rfl
  | cons c cs ih =>
    rw [State.storeBytes_cons, ih, List.reverse_cons, List.find?_append]
    cases hf : cs.reverse.find? (fun c => c.1 == a) with
    | some d => rfl
    | none =>
      simp only [Option.none_or, State.storeByte_mem, Memory.read_write, List.find?_cons, List.find?_nil]
      by_cases h : c.1 = a
      · simp [h]
      · rw [if_neg h, beq_eq_false_iff_ne.mpr h]

/-- A byte that is not among those stored reads as before. -/
theorem State.read_storeBytes_of_not_mem (s : State) (cells : List Host.Cell) (a : Nat) (h : ∀ c ∈ cells, c.1 ≠ a) :
    Memory.read (s.storeBytes cells).mem a = Memory.read s.mem a := by
  rw [State.read_storeBytes, List.find?_eq_none.mpr]
  intro c hc
  simpa using h c (List.mem_reverse.mp hc)

/-- A store leaves every byte outside its span as it was. -/
theorem State.read_memWrite_of_not_mem (s : State) (a : XWord) (n : Nat) (v : BitVec 64) (b : Nat) (h : b ∉ s.span a n) :
    Memory.read (s.memWrite a n v).mem b = Memory.read s.mem b := by
  refine s.read_storeBytes_of_not_mem _ b fun c hc he => h ?_
  exact he ▸ (List.of_mem_zip hc).1

/-! ### The fetch view -/

/-- What is remembered of the fetch view rises in addresses. -/
theorem State.remember_rising (s : State) (a : Nat) (h : Memory.rising s.stale = true) :
    Memory.rising (s.remember a) = true := by
  unfold State.remember
  split
  · exact h
  · exact Memory.rising_insert _ _ _ h

theorem State.storeBytes_stale_rising (s : State) (cells : List Host.Cell) (h : Memory.rising s.stale = true) :
    Memory.rising (s.storeBytes cells).stale = true := by
  induction cells generalizing s with
  | nil => exact h
  | cons c cs ih => exact ih _ (s.remember_rising _ h)

/-- The fetch of a byte that was not stored to since the last FENCE.I reads memory. -/
theorem State.fetchByte_of_not_stale (s : State) (a : Nat) (h : ∀ c ∈ s.stale, c.1 ≠ a) :
    s.fetchByte a = Memory.read s.mem a := by
  unfold State.fetchByte
  rw [List.find?_eq_none.mpr]
  intro c hc
  simpa using h c hc

/-- What the bytes of one fetch can be: all of them those of memory, or all of them those of the last FENCE.I (R70, R422). -/
theorem State.fetchByte_cases (s : State) :
    (∀ a, s.fetchByte a = Memory.read s.mem a) ∨
    ∀ a, s.fetchByte a = ((s.stale.find? fun c => c.1 == a).map (·.2)).getD (Memory.read s.mem a) := by
  unfold State.fetchByte
  cases Config.fetchSeesOld s.draws (unsigned s.cfg.xlen s.pc)
  · exact .inl fun a => by cases s.stale.find? fun c => c.1 == a <;> rfl
  · exact .inr fun a => by cases s.stale.find? fun c => c.1 == a <;> rfl

/-- The instruction word depends on the bytes of its span alone. -/
theorem State.wordOf_congr (s : State) {read read' : Nat → Byte} (pc : XWord)
    (h : ∀ a ∈ s.span pc 4, read a = read' a) : s.wordOf read pc = s.wordOf read' pc := by
  have byte : ∀ k < 4, read ((unsigned s.cfg.xlen pc + k) % 2 ^ s.cfg.xlen.bits) =
      read' ((unsigned s.cfg.xlen pc + k) % 2 ^ s.cfg.xlen.bits) :=
    fun k hk => h _ (List.mem_map.mpr ⟨k, List.mem_range.mpr hk, rfl⟩)
  simp only [State.wordOf, byte 0 (by omega), byte 1 (by omega), byte 2 (by omega), byte 3 (by omega)]

end Sys2Proof.Machine
end

