-- ==== Sys2Proof/Laws/Ops.lean ====
section
/-! SUPPORT. What each shared operation can do, said once: if it answers a next state, then it is one of these.  And the
small laws of values of XPRLEN bits. -/

namespace Sys2Proof.Machine

/-! ### Values of XPRLEN bits -/

theorem trunc_toNat (xl : Xlen) (v : XWord) : (trunc xl v).toNat = v.toNat % 2 ^ xl.bits := by
  cases xl
  · simp only [trunc, Xlen.bits, BitVec.toNat_setWidth]; omega
  · simp only [trunc, Xlen.bits]; omega

theorem trunc_lt (xl : Xlen) (v : XWord) : (trunc xl v).toNat < 2 ^ xl.bits := by
  rw [trunc_toNat]; exact Nat.mod_lt _ (Nat.two_pow_pos _)

@[simp] theorem trunc_trunc (xl : Xlen) (v : XWord) : trunc xl (trunc xl v) = trunc xl v := by
  apply BitVec.eq_of_toNat_eq
  rw [trunc_toNat, Nat.mod_eq_of_lt (trunc_lt xl v)]

/-- A value that fits is its own truncation. -/
theorem trunc_of_fits {xl : Xlen} {v : XWord} (h : v.toNat < 2 ^ xl.bits) : trunc xl v = v := by
  apply BitVec.eq_of_toNat_eq
  rw [trunc_toNat, Nat.mod_eq_of_lt h]

@[simp] theorem fits_trunc (xl : Xlen) (v : XWord) : fits xl (trunc xl v) = true := by
  simpa [fits] using trunc_lt xl v

theorem State.readX_lt (s : State) (r : Reg) : (s.readX r).toNat < 2 ^ s.cfg.xlen.bits := by
  unfold State.readX
  split
  · exact Nat.two_pow_pos _
  · exact trunc_lt _ _

@[simp] theorem State.trunc_readX (s : State) (r : Reg) : trunc s.cfg.xlen (s.readX r) = s.readX r :=
  trunc_of_fits (s.readX_lt r)

/-- On RV64 no bit is dropped. -/
@[simp] theorem trunc_rv64 (v : XWord) : trunc .rv64 v = v := rfl

/-! ### Permissions -/

/-- No byte is denied just where every byte permits every kind. -/
theorem State.denied_eq_none (s : State) (kinds : List AccessKind) (a : XWord) (n : Nat) :
    s.denied kinds a n = none ↔ s.Permitted kinds a n := by
  unfold State.denied State.Permitted
  rw [List.min?_eq_none_iff, List.filter_eq_nil_iff]
  simp only [Bool.not_eq_true', Bool.not_eq_false, List.all_eq_true]

/-- The address named is in the span, is denied, and is the lowest such. -/
theorem State.denied_eq_some (s : State) (kinds : List AccessKind) (a : XWord) (n b : Nat) :
    s.denied kinds a n = some b ↔
      (b ∈ s.span a n ∧ kinds.all (Perm.allows (MemMap.perm s.cfg.memMap b)) = false) ∧
      ∀ c ∈ s.span a n, kinds.all (Perm.allows (MemMap.perm s.cfg.memMap c)) = false → b ≤ c := by
  unfold State.denied
  rw [List.min?_eq_some_iff]
  simp only [List.mem_filter, Bool.not_eq_true', and_imp]

/-! ### Taking an exception -/

/-- An exception always has a next state. -/
theorem raise_next (e : Exc) (s : State) : ∃ t, raise e s = .next t := by
  unfold raise
  dsimp only
  split <;> exact ⟨_, rfl⟩

/-- What taking an exception can do. -/
theorem raise_cases {e : Exc} {s t : State} (h : raise e s = .next t) :
    (s.outcome ⟨e, s.readPc⟩ = .stop ∧ t = { s with traps := ⟨e, s.readPc⟩ :: s.traps, halted := true }) ∨
    ∃ r, s.outcome ⟨e, s.readPc⟩ = .resume r ∧ t = State.resume { s with traps := ⟨e, s.readPc⟩ :: s.traps } r := by
  unfold raise at h
  dsimp only at h
  split at h <;> rename_i he
  · exact .inl ⟨he, (Host.Outcome.next.inj h).symm⟩
  · exact .inr ⟨_, he, (Host.Outcome.next.inj h).symm⟩

/-! #### What a resuming environment leaves as it is -/

/-- A fold of state updates keeps what each of them keeps. -/
theorem foldl_keeps {α β : Type} (get : State → β) (upd : State → α → State) (keep : ∀ u a, get (upd u a) = get u)
    (l : List α) (s : State) : get (l.foldl upd s) = get s := by
  induction l generalizing s with
  | nil => rfl
  | cons a l ih => exact (ih _).trans (keep s a)

/-- What register writes, a write of `fsr` and stores all keep, a resuming environment keeps. -/
theorem State.resume_keeps {β : Type} (get : State → β) (s : State) (r : Resumption)
    (keepX : ∀ u (p : Reg × XWord), get (State.writeX u p.1 p.2) = get u) (keepF : ∀ u (p : Reg × FReg), get (State.writeF u p.1 p.2) = get u)
    (keepFsr : ∀ u v, get (State.writeFsr u v) = get u) (keepMem : ∀ u cells, get (State.storeBytes u cells) = get u)
    (keepEnd : ∀ (u : State) pc instret stale, get { u with pc := pc, instret := instret, stale := stale } = get u) :
    get (s.resume r) = get s := by
  unfold State.resume
  dsimp only
  rw [keepEnd, keepMem]
  cases r.fsr with
  | none =>
    exact (foldl_keeps get (fun s (p : Reg × FReg) => s.writeF p.1 p.2) keepF _ _).trans
      (foldl_keeps get (fun s (p : Reg × XWord) => s.writeX p.1 p.2) keepX _ _)
  | some v =>
    exact (keepFsr _ v).trans ((foldl_keeps get (fun s (p : Reg × FReg) => s.writeF p.1 p.2) keepF _ _).trans
      (foldl_keeps get (fun s (p : Reg × XWord) => s.writeX p.1 p.2) keepX _ _))

@[simp] theorem State.resume_cfg (s : State) (r : Resumption) : (s.resume r).cfg = s.cfg :=
  s.resume_keeps State.cfg r (fun _ _ => State.writeX_cfg ..) (fun _ _ => rfl) (fun _ _ => rfl)
    (fun _ _ => State.storeBytes_cfg ..) fun _ _ _ _ => rfl

@[simp] theorem State.resume_halted (s : State) (r : Resumption) : (s.resume r).halted = s.halted :=
  s.resume_keeps State.halted r (fun _ _ => State.writeX_halted ..) (fun _ _ => rfl) (fun _ _ => rfl)
    (fun _ _ => State.storeBytes_halted ..) fun _ _ _ _ => rfl

@[simp] theorem State.resume_traps (s : State) (r : Resumption) : (s.resume r).traps = s.traps :=
  s.resume_keeps State.traps r (fun _ _ => State.writeX_traps ..) (fun _ _ => rfl) (fun _ _ => rfl)
    (fun _ _ => State.storeBytes_traps ..) fun _ _ _ _ => rfl

@[simp] theorem State.resume_handler (s : State) (r : Resumption) : (s.resume r).handler = s.handler :=
  s.resume_keeps State.handler r (fun _ _ => State.writeX_handler ..) (fun _ _ => rfl) (fun _ _ => rfl)
    (fun _ _ => State.storeBytes_handler ..) fun _ _ _ _ => rfl

@[simp] theorem State.resume_cycle (s : State) (r : Resumption) : (s.resume r).cycle = s.cycle :=
  s.resume_keeps State.cycle r (fun _ _ => State.writeX_cycle ..) (fun _ _ => rfl) (fun _ _ => rfl)
    (fun _ _ => State.storeBytes_cycle ..) fun _ _ _ _ => rfl

@[simp] theorem State.resume_time (s : State) (r : Resumption) : (s.resume r).time = s.time :=
  s.resume_keeps State.time r (fun _ _ => State.writeX_time ..) (fun _ _ => rfl) (fun _ _ => rfl)
    (fun _ _ => State.storeBytes_time ..) fun _ _ _ _ => rfl

@[simp] theorem State.resume_draws (s : State) (r : Resumption) : (s.resume r).draws = s.draws :=
  s.resume_keeps State.draws r (fun _ _ => State.writeX_draws ..) (fun _ _ => rfl) (fun _ _ => rfl)
    (fun _ _ => State.storeBytes_draws ..) fun _ _ _ _ => rfl

@[simp] theorem State.resume_pc (s : State) (r : Resumption) : (s.resume r).pc = trunc s.cfg.xlen r.pc := by
  have h : (s.resume r).pc = trunc (s.resume r).cfg.xlen r.pc := rfl
  rw [h, State.resume_cfg]

/-- An exception hands its record over, whatever the outcome. -/
theorem raise_traps {e : Exc} {s t : State} (h : raise e s = .next t) : t.traps = ⟨e, s.readPc⟩ :: s.traps := by
  rcases raise_cases h with ⟨-, rfl⟩ | ⟨r, -, rfl⟩
  · rfl
  · rw [State.resume_traps]

/-- An exception is never a step without a trap. -/
theorem raise_not_trapFree {e : Exc} {s t : State} (h : raise e s = .next t) : ¬ s.TrapFree t := by
  intro hf
  have := (raise_traps h).symm.trans hf
  exact absurd (congrArg List.length this) (by simp)

/-- A clock does not go back. -/
theorem le_advanceClock (xl : Xlen) (count ticks : Nat) : count ≤ advanceClock xl count ticks := by
  unfold advanceClock
  split <;> exact Nat.le_add_right _ _

/-- On RV64 a clock does not overflow. -/
theorem advanceClock_lt {xl : Xlen} {count : Nat} (ticks : Nat) (hx : xl = .rv64) (h : count < 2 ^ 64) :
    advanceClock xl count ticks < 2 ^ 64 := by
  unfold advanceClock
  subst hx
  dsimp only
  omega

/-! ### Checks before an instruction's effect -/

theorem withRM_some {i : Instr} {rm : BitVec 3} {s : State} {k : RMode → Result} {m : RMode} (h : s.effRM rm = some m) :
    withRM i rm s k = k m := by
  unfold withRM; rw [h]

theorem withRM_none {i : Instr} {rm : BitVec 3} {s : State} {k : RMode → Result} (h : s.effRM rm = none) :
    withRM i rm s k = raise (.illegalInstruction (encode i)) s := by
  unfold withRM; rw [h]; rfl

/-- What an instruction with a rounding mode can do. -/
theorem withRM_cases {i : Instr} {rm : BitVec 3} {s t : State} {k : RMode → Result} (h : withRM i rm s k = .next t) :
    (s.effRM rm = none ∧ raise (.illegalInstruction (encode i)) s = .next t) ∨
    ∃ m, s.effRM rm = some m ∧ k m = .next t := by
  cases hm : s.effRM rm with
  | none => rw [withRM_none hm] at h; exact .inl ⟨rfl, h⟩
  | some m => rw [withRM_some hm] at h; exact .inr ⟨m, rfl, h⟩

theorem rv64Only_rv64 {i : Instr} {s : State} {k : Result} (h : s.cfg.xlen = .rv64) : rv64Only i s k = k := by
  unfold rv64Only; rw [h]

theorem rv64Only_rv32 {i : Instr} {s : State} {k : Result} (h : s.cfg.xlen = .rv32) :
    rv64Only i s k = raise (.illegalInstruction (encode i)) s := by
  unfold rv64Only; rw [h]; rfl

/-- What an RV64-only instruction can do. -/
theorem rv64Only_cases {i : Instr} {s t : State} {k : Result} (h : rv64Only i s k = .next t) :
    (s.cfg.xlen = .rv32 ∧ raise (.illegalInstruction (encode i)) s = .next t) ∨ (s.cfg.xlen = .rv64 ∧ k = .next t) := by
  cases hx : s.cfg.xlen with
  | rv32 => rw [rv64Only_rv32 hx] at h; exact .inl ⟨rfl, h⟩
  | rv64 => rw [rv64Only_rv64 hx] at h; exact .inr ⟨rfl, h⟩

/-- What a constant shift can do. -/
theorem checkShamt_cases {i : Instr} {shamt : BitVec 6} {s t : State} {k : Result}
    (h : checkShamt i shamt s k = .next t) :
    (s.cfg.xlen = .rv32 ∧ shamt.getLsbD 5 = true ∧ raise (.illegalInstruction (encode i)) s = .next t) ∨
    (¬(s.cfg.xlen = .rv32 ∧ shamt.getLsbD 5 = true) ∧ k = .next t) := by
  unfold checkShamt at h
  split at h
  · rename_i hc; exact .inl ⟨hc.1, hc.2, h⟩
  · rename_i hc; exact .inr ⟨hc, h⟩

/-! ### Loads, stores, AMOs -/

/-- What a load can do. -/
theorem loadThen_cases {a : XWord} {n : Nat} {s t : State} {k : BitVec 64 → Result} (h : loadThen a n s k = .next t) :
    (∃ b, s.denied [.load] a n = some b ∧ raise (.accessFault b .load) s = .next t) ∨
    (s.Permitted [.load] a n ∧ k (s.memRead a n) = .next t) := by
  unfold loadThen at h
  split at h
  · exact .inl ⟨_, by assumption, h⟩
  · exact .inr ⟨(s.denied_eq_none _ _ _).mp (by assumption), h⟩

/-- What a store can do. -/
theorem storeDone_cases {a : XWord} {n : Nat} {v : BitVec 64} {s t : State} (h : storeDone a n v s = .next t) :
    (∃ b, s.denied [.store] a n = some b ∧ raise (.accessFault b .store) s = .next t) ∨
    (s.Permitted [.store] a n ∧ t = (s.memWrite a n v).retire) := by
  unfold storeDone at h
  split at h
  · exact .inl ⟨_, by assumption, h⟩
  · exact .inr ⟨(s.denied_eq_none _ _ _).mp (by assumption), (Host.Outcome.next.inj h).symm⟩

/-- What an AMO can do. -/
theorem amo_cases {rd rs1 : Reg} {n : Nat} {op : BitVec 64 → BitVec 64} {ext : BitVec 64 → XWord} {s t : State}
    (h : amo rd rs1 n op ext s = .next t) :
    ((s.readX rs1).toNat % n ≠ 0 ∧ raise (.misalignedAddress (s.readX rs1)) s = .next t) ∨
    (∃ b, s.denied [.load, .store] (s.readX rs1) n = some b ∧ raise (.accessFault b .store) s = .next t) ∨
    ((s.readX rs1).toNat % n = 0 ∧ s.Permitted [.load, .store] (s.readX rs1) n ∧
      t = ((s.memWrite (s.readX rs1) n (op (s.memRead (s.readX rs1) n))).writeX rd
        (ext (s.memRead (s.readX rs1) n))).retire) := by
  unfold amo at h
  dsimp only at h
  split at h
  · exact .inl ⟨by assumption, h⟩
  · split at h
    · exact .inr (.inl ⟨_, by assumption, h⟩)
    · rename_i ha _ hd
      exact .inr (.inr ⟨not_not.mp ha, (s.denied_eq_none _ _ _).mp hd, (Host.Outcome.next.inj h).symm⟩)

/-! ### Results -/

theorem putX_cases {rd : Reg} {v : XWord} {s t : State} (h : putX rd v s = .next t) : t = (s.writeX rd v).retire :=
  (Host.Outcome.next.inj h).symm

theorem putXFlags_cases {rd : Reg} {v : XWord} {fl : FFlags} {s t : State} (h : putXFlags rd v fl s = .next t) :
    t = ((s.writeX rd v).accrue fl).retire :=
  (Host.Outcome.next.inj h).symm

theorem putF_cases {rd : Reg} {v : FReg} {s t : State} (h : putF rd v s = .next t) : t = (s.writeF rd v).retire :=
  (Host.Outcome.next.inj h).symm

theorem putFFlags_cases {rd : Reg} {v : FReg} {fl : FFlags} {s t : State} (h : putFFlags rd v fl s = .next t) :
    t = ((s.writeF rd v).accrue fl).retire :=
  (Host.Outcome.next.inj h).symm

/-- The flags `fsr` shows after a result that raises some: the old ones and those. -/
theorem State.readFsr_accrue (s : State) (fl : FFlags) :
    (s.accrue fl).readFsr = s.readFsr ||| fl.bits.setWidth 32 := by
  have low : fl.bits.setWidth 32 &&& fsrMask = fl.bits.setWidth 32 := by
    rcases fl with ⟨a, b, c, d, e⟩
    revert a b c d e
    decide
  show (s.fsr ||| fl.bits.setWidth 32) &&& fsrMask &&& fsrMask = s.fsr &&& fsrMask ||| fl.bits.setWidth 32
  rw [BitVec.and_assoc, BitVec.and_self, ← low]
  ext k hk
  simp only [BitVec.getElem_and, BitVec.getElem_or]
  cases s.fsr[k] <;> cases fsrMask[k] <;> simp

/-! ### The step -/

/-- What the fetch can do. -/
theorem State.fetch_cases (s : State) :
    (unsigned s.cfg.xlen s.pc % 4 ≠ 0 ∧ s.fetch = .error .instructionAddressMisaligned) ∨
    (unsigned s.cfg.xlen s.pc % 4 = 0 ∧ ∃ b, s.denied [.fetch] s.pc 4 = some b ∧ s.fetch = .error (.accessFault b .fetch)) ∨
    (unsigned s.cfg.xlen s.pc % 4 = 0 ∧ s.Permitted [.fetch] s.pc 4 ∧ s.fetch = .ok s.fetchWord) := by
  unfold State.fetch
  by_cases ha : unsigned s.cfg.xlen s.pc % 4 = 0
  · rw [if_neg (not_not.mpr ha)]
    cases hd : s.denied [.fetch] s.pc 4 with
    | some b => exact .inr (.inl ⟨ha, b, rfl, rfl⟩)
    | none => exact .inr (.inr ⟨ha, (s.denied_eq_none _ _ _).mp hd, rfl⟩)
  · rw [if_pos ha]
    exact .inl ⟨ha, rfl⟩

/-- What the instruction of a step is: a trap of the fetch, a trap of the decoding, or a meaning. -/
theorem stepInstr_cases (s : State) :
    (∃ e, s.fetch = .error e ∧ stepInstr s = raise e s) ∨
    (∃ w e, s.fetch = .ok w ∧ decode w = .error e ∧ stepInstr s = raise (.illegalInstruction w) s) ∨
    ∃ w i, s.fetch = .ok w ∧ decode w = .ok i ∧ stepInstr s = exec i s := by
  unfold stepInstr
  cases hf : s.fetch with
  | error e => exact .inl ⟨e, rfl, rfl⟩
  | ok w =>
    cases hd : decode w with
    | error e => exact .inr (.inl ⟨w, e, rfl, hd, by simp only [hd]⟩)
    | ok i => exact .inr (.inr ⟨w, i, rfl, hd, by simp only [hd]⟩)

theorem afterTick_next {r : Result} {t : State} (h : afterTick r = .next t) : ∃ u, r = .next u ∧ t = u.tick := by
  cases r with
  | next u => exact ⟨u, rfl, (Host.Outcome.next.inj h).symm⟩
  | fault _ => cases h
  | refused _ => cases h

/-- What a step can do. -/
theorem step_cases {s t : State} (h : step s = .next t) :
    s.halted = false ∧ ∃ u, stepInstr s = .next u ∧ t = u.tick := by
  unfold step at h
  split at h
  · cases h
  · exact ⟨by simpa using (by assumption : ¬s.halted = true), afterTick_next h⟩

end Sys2Proof.Machine
end

