-- ==== Sys2Proof/Laws/PerInstr.lean ====
section
/-! SUPPORT. The per-instruction family `Encoding`: the low five bits of every instruction's word mark a 32-bit instruction
(spec/30_encoding.md R81), one lemma for each constructor. -/

namespace Sys2Proof.Laws.Encoding

/-- The word of the instruction is in the space of the 32-bit instructions: bits 1:0 are 11 and bits 4:2 are not 111. -/
def Statement (i : Instr) : Prop := (encode i).extractLsb' 0 2 = 0b11#2 ∧ (encode i).extractLsb' 2 3 ≠ 0b111#3

/-- The low five bits of a word are those of its major opcode. -/
theorem of_opcode {i : Instr} (upper : BitVec 25) (op : BitVec 7) (h : encode i = upper ++ op)
    (low : op.extractLsb' 0 2 = 0b11#2) (mid : op.extractLsb' 2 3 ≠ 0b111#3) : Statement i := by
  have lowBits : (upper ++ op).extractLsb' 0 2 = op.extractLsb' 0 2 := by
    ext k hk
    simp only [BitVec.getElem_extractLsb', BitVec.getLsbD_append, show 0 + k < 7 by omega, if_true]
  have midBits : (upper ++ op).extractLsb' 2 3 = op.extractLsb' 2 3 := by
    ext k hk
    simp only [BitVec.getElem_extractLsb', BitVec.getLsbD_append, show 2 + k < 7 by omega, if_true]
  unfold Statement
  rw [h, lowBits, midBits]
  exact ⟨low, mid⟩

theorem j (off25 : BitVec 25) : Statement (.j off25) :=
  of_opcode _ 0b1100111#7 rfl (by decide) (by decide)
theorem jal (off25 : BitVec 25) : Statement (.jal off25) :=
  of_opcode _ 0b1101111#7 rfl (by decide) (by decide)
theorem beq (rs1 : Reg) (rs2 : Reg) (imm12 : BitVec 12) : Statement (.beq rs1 rs2 imm12) :=
  of_opcode _ 0b1100011#7 rfl (by decide) (by decide)
theorem bne (rs1 : Reg) (rs2 : Reg) (imm12 : BitVec 12) : Statement (.bne rs1 rs2 imm12) :=
  of_opcode _ 0b1100011#7 rfl (by decide) (by decide)
theorem blt (rs1 : Reg) (rs2 : Reg) (imm12 : BitVec 12) : Statement (.blt rs1 rs2 imm12) :=
  of_opcode _ 0b1100011#7 rfl (by decide) (by decide)
theorem bge (rs1 : Reg) (rs2 : Reg) (imm12 : BitVec 12) : Statement (.bge rs1 rs2 imm12) :=
  of_opcode _ 0b1100011#7 rfl (by decide) (by decide)
theorem bltu (rs1 : Reg) (rs2 : Reg) (imm12 : BitVec 12) : Statement (.bltu rs1 rs2 imm12) :=
  of_opcode _ 0b1100011#7 rfl (by decide) (by decide)
theorem bgeu (rs1 : Reg) (rs2 : Reg) (imm12 : BitVec 12) : Statement (.bgeu rs1 rs2 imm12) :=
  of_opcode _ 0b1100011#7 rfl (by decide) (by decide)
theorem jalrC (rd : Reg) (rs1 : Reg) (imm12 : BitVec 12) : Statement (.jalrC rd rs1 imm12) :=
  of_opcode _ 0b1101011#7 rfl (by decide) (by decide)
theorem jalrR (rd : Reg) (rs1 : Reg) (imm12 : BitVec 12) : Statement (.jalrR rd rs1 imm12) :=
  of_opcode _ 0b1101011#7 rfl (by decide) (by decide)
theorem jalrJ (rd : Reg) (rs1 : Reg) (imm12 : BitVec 12) : Statement (.jalrJ rd rs1 imm12) :=
  of_opcode _ 0b1101011#7 rfl (by decide) (by decide)
theorem rdnpc (rd : Reg) : Statement (.rdnpc rd) :=
  of_opcode _ 0b1101011#7 rfl (by decide) (by decide)
theorem lb (rd : Reg) (rs1 : Reg) (imm12 : BitVec 12) : Statement (.lb rd rs1 imm12) :=
  of_opcode _ 0b0000011#7 rfl (by decide) (by decide)
theorem lh (rd : Reg) (rs1 : Reg) (imm12 : BitVec 12) : Statement (.lh rd rs1 imm12) :=
  of_opcode _ 0b0000011#7 rfl (by decide) (by decide)
theorem lw (rd : Reg) (rs1 : Reg) (imm12 : BitVec 12) : Statement (.lw rd rs1 imm12) :=
  of_opcode _ 0b0000011#7 rfl (by decide) (by decide)
theorem ld (rd : Reg) (rs1 : Reg) (imm12 : BitVec 12) : Statement (.ld rd rs1 imm12) :=
  of_opcode _ 0b0000011#7 rfl (by decide) (by decide)
theorem lbu (rd : Reg) (rs1 : Reg) (imm12 : BitVec 12) : Statement (.lbu rd rs1 imm12) :=
  of_opcode _ 0b0000011#7 rfl (by decide) (by decide)
theorem lhu (rd : Reg) (rs1 : Reg) (imm12 : BitVec 12) : Statement (.lhu rd rs1 imm12) :=
  of_opcode _ 0b0000011#7 rfl (by decide) (by decide)
theorem lwu (rd : Reg) (rs1 : Reg) (imm12 : BitVec 12) : Statement (.lwu rd rs1 imm12) :=
  of_opcode _ 0b0000011#7 rfl (by decide) (by decide)
theorem sb (rs1 : Reg) (rs2 : Reg) (imm12 : BitVec 12) : Statement (.sb rs1 rs2 imm12) :=
  of_opcode _ 0b0100011#7 rfl (by decide) (by decide)
theorem sh (rs1 : Reg) (rs2 : Reg) (imm12 : BitVec 12) : Statement (.sh rs1 rs2 imm12) :=
  of_opcode _ 0b0100011#7 rfl (by decide) (by decide)
theorem sw (rs1 : Reg) (rs2 : Reg) (imm12 : BitVec 12) : Statement (.sw rs1 rs2 imm12) :=
  of_opcode _ 0b0100011#7 rfl (by decide) (by decide)
theorem sd (rs1 : Reg) (rs2 : Reg) (imm12 : BitVec 12) : Statement (.sd rs1 rs2 imm12) :=
  of_opcode _ 0b0100011#7 rfl (by decide) (by decide)
theorem amoaddW (rd : Reg) (rs1 : Reg) (rs2 : Reg) : Statement (.amoaddW rd rs1 rs2) :=
  of_opcode _ 0b0101011#7 rfl (by decide) (by decide)
theorem amoswapW (rd : Reg) (rs1 : Reg) (rs2 : Reg) : Statement (.amoswapW rd rs1 rs2) :=
  of_opcode _ 0b0101011#7 rfl (by decide) (by decide)
theorem amoandW (rd : Reg) (rs1 : Reg) (rs2 : Reg) : Statement (.amoandW rd rs1 rs2) :=
  of_opcode _ 0b0101011#7 rfl (by decide) (by decide)
theorem amoorW (rd : Reg) (rs1 : Reg) (rs2 : Reg) : Statement (.amoorW rd rs1 rs2) :=
  of_opcode _ 0b0101011#7 rfl (by decide) (by decide)
theorem amominW (rd : Reg) (rs1 : Reg) (rs2 : Reg) : Statement (.amominW rd rs1 rs2) :=
  of_opcode _ 0b0101011#7 rfl (by decide) (by decide)
theorem amomaxW (rd : Reg) (rs1 : Reg) (rs2 : Reg) : Statement (.amomaxW rd rs1 rs2) :=
  of_opcode _ 0b0101011#7 rfl (by decide) (by decide)
theorem amominuW (rd : Reg) (rs1 : Reg) (rs2 : Reg) : Statement (.amominuW rd rs1 rs2) :=
  of_opcode _ 0b0101011#7 rfl (by decide) (by decide)
theorem amomaxuW (rd : Reg) (rs1 : Reg) (rs2 : Reg) : Statement (.amomaxuW rd rs1 rs2) :=
  of_opcode _ 0b0101011#7 rfl (by decide) (by decide)
theorem amoaddD (rd : Reg) (rs1 : Reg) (rs2 : Reg) : Statement (.amoaddD rd rs1 rs2) :=
  of_opcode _ 0b0101011#7 rfl (by decide) (by decide)
theorem amoswapD (rd : Reg) (rs1 : Reg) (rs2 : Reg) : Statement (.amoswapD rd rs1 rs2) :=
  of_opcode _ 0b0101011#7 rfl (by decide) (by decide)
theorem amoandD (rd : Reg) (rs1 : Reg) (rs2 : Reg) : Statement (.amoandD rd rs1 rs2) :=
  of_opcode _ 0b0101011#7 rfl (by decide) (by decide)
theorem amoorD (rd : Reg) (rs1 : Reg) (rs2 : Reg) : Statement (.amoorD rd rs1 rs2) :=
  of_opcode _ 0b0101011#7 rfl (by decide) (by decide)
theorem amominD (rd : Reg) (rs1 : Reg) (rs2 : Reg) : Statement (.amominD rd rs1 rs2) :=
  of_opcode _ 0b0101011#7 rfl (by decide) (by decide)
theorem amomaxD (rd : Reg) (rs1 : Reg) (rs2 : Reg) : Statement (.amomaxD rd rs1 rs2) :=
  of_opcode _ 0b0101011#7 rfl (by decide) (by decide)
theorem amominuD (rd : Reg) (rs1 : Reg) (rs2 : Reg) : Statement (.amominuD rd rs1 rs2) :=
  of_opcode _ 0b0101011#7 rfl (by decide) (by decide)
theorem amomaxuD (rd : Reg) (rs1 : Reg) (rs2 : Reg) : Statement (.amomaxuD rd rs1 rs2) :=
  of_opcode _ 0b0101011#7 rfl (by decide) (by decide)
theorem addi (rd : Reg) (rs1 : Reg) (imm12 : BitVec 12) : Statement (.addi rd rs1 imm12) :=
  of_opcode _ 0b0010011#7 rfl (by decide) (by decide)
theorem slti (rd : Reg) (rs1 : Reg) (imm12 : BitVec 12) : Statement (.slti rd rs1 imm12) :=
  of_opcode _ 0b0010011#7 rfl (by decide) (by decide)
theorem sltiu (rd : Reg) (rs1 : Reg) (imm12 : BitVec 12) : Statement (.sltiu rd rs1 imm12) :=
  of_opcode _ 0b0010011#7 rfl (by decide) (by decide)
theorem xori (rd : Reg) (rs1 : Reg) (imm12 : BitVec 12) : Statement (.xori rd rs1 imm12) :=
  of_opcode _ 0b0010011#7 rfl (by decide) (by decide)
theorem ori (rd : Reg) (rs1 : Reg) (imm12 : BitVec 12) : Statement (.ori rd rs1 imm12) :=
  of_opcode _ 0b0010011#7 rfl (by decide) (by decide)
theorem andi (rd : Reg) (rs1 : Reg) (imm12 : BitVec 12) : Statement (.andi rd rs1 imm12) :=
  of_opcode _ 0b0010011#7 rfl (by decide) (by decide)
theorem slli (rd : Reg) (rs1 : Reg) (shamt : BitVec 6) : Statement (.slli rd rs1 shamt) :=
  of_opcode _ 0b0010011#7 rfl (by decide) (by decide)
theorem srli (rd : Reg) (rs1 : Reg) (shamt : BitVec 6) : Statement (.srli rd rs1 shamt) :=
  of_opcode _ 0b0010011#7 rfl (by decide) (by decide)
theorem srai (rd : Reg) (rs1 : Reg) (shamt : BitVec 6) : Statement (.srai rd rs1 shamt) :=
  of_opcode _ 0b0010011#7 rfl (by decide) (by decide)
theorem add (rd : Reg) (rs1 : Reg) (rs2 : Reg) : Statement (.add rd rs1 rs2) :=
  of_opcode _ 0b0110011#7 rfl (by decide) (by decide)
theorem sub (rd : Reg) (rs1 : Reg) (rs2 : Reg) : Statement (.sub rd rs1 rs2) :=
  of_opcode _ 0b0110011#7 rfl (by decide) (by decide)
theorem sll (rd : Reg) (rs1 : Reg) (rs2 : Reg) : Statement (.sll rd rs1 rs2) :=
  of_opcode _ 0b0110011#7 rfl (by decide) (by decide)
theorem slt (rd : Reg) (rs1 : Reg) (rs2 : Reg) : Statement (.slt rd rs1 rs2) :=
  of_opcode _ 0b0110011#7 rfl (by decide) (by decide)
theorem sltu (rd : Reg) (rs1 : Reg) (rs2 : Reg) : Statement (.sltu rd rs1 rs2) :=
  of_opcode _ 0b0110011#7 rfl (by decide) (by decide)
theorem xor (rd : Reg) (rs1 : Reg) (rs2 : Reg) : Statement (.xor rd rs1 rs2) :=
  of_opcode _ 0b0110011#7 rfl (by decide) (by decide)
theorem srl (rd : Reg) (rs1 : Reg) (rs2 : Reg) : Statement (.srl rd rs1 rs2) :=
  of_opcode _ 0b0110011#7 rfl (by decide) (by decide)
theorem sra (rd : Reg) (rs1 : Reg) (rs2 : Reg) : Statement (.sra rd rs1 rs2) :=
  of_opcode _ 0b0110011#7 rfl (by decide) (by decide)
theorem or (rd : Reg) (rs1 : Reg) (rs2 : Reg) : Statement (.or rd rs1 rs2) :=
  of_opcode _ 0b0110011#7 rfl (by decide) (by decide)
theorem and (rd : Reg) (rs1 : Reg) (rs2 : Reg) : Statement (.and rd rs1 rs2) :=
  of_opcode _ 0b0110011#7 rfl (by decide) (by decide)
theorem mul (rd : Reg) (rs1 : Reg) (rs2 : Reg) : Statement (.mul rd rs1 rs2) :=
  of_opcode _ 0b0110011#7 rfl (by decide) (by decide)
theorem mulh (rd : Reg) (rs1 : Reg) (rs2 : Reg) : Statement (.mulh rd rs1 rs2) :=
  of_opcode _ 0b0110011#7 rfl (by decide) (by decide)
theorem mulhsu (rd : Reg) (rs1 : Reg) (rs2 : Reg) : Statement (.mulhsu rd rs1 rs2) :=
  of_opcode _ 0b0110011#7 rfl (by decide) (by decide)
theorem mulhu (rd : Reg) (rs1 : Reg) (rs2 : Reg) : Statement (.mulhu rd rs1 rs2) :=
  of_opcode _ 0b0110011#7 rfl (by decide) (by decide)
theorem div (rd : Reg) (rs1 : Reg) (rs2 : Reg) : Statement (.div rd rs1 rs2) :=
  of_opcode _ 0b0110011#7 rfl (by decide) (by decide)
theorem divu (rd : Reg) (rs1 : Reg) (rs2 : Reg) : Statement (.divu rd rs1 rs2) :=
  of_opcode _ 0b0110011#7 rfl (by decide) (by decide)
theorem rem (rd : Reg) (rs1 : Reg) (rs2 : Reg) : Statement (.rem rd rs1 rs2) :=
  of_opcode _ 0b0110011#7 rfl (by decide) (by decide)
theorem remu (rd : Reg) (rs1 : Reg) (rs2 : Reg) : Statement (.remu rd rs1 rs2) :=
  of_opcode _ 0b0110011#7 rfl (by decide) (by decide)
theorem lui (rd : Reg) (imm20 : BitVec 20) : Statement (.lui rd imm20) :=
  of_opcode _ 0b0110111#7 rfl (by decide) (by decide)
theorem addiw (rd : Reg) (rs1 : Reg) (imm12 : BitVec 12) : Statement (.addiw rd rs1 imm12) :=
  of_opcode _ 0b0011011#7 rfl (by decide) (by decide)
theorem slliw (rd : Reg) (rs1 : Reg) (shamt : BitVec 5) : Statement (.slliw rd rs1 shamt) :=
  of_opcode _ 0b0011011#7 rfl (by decide) (by decide)
theorem srliw (rd : Reg) (rs1 : Reg) (shamt : BitVec 5) : Statement (.srliw rd rs1 shamt) :=
  of_opcode _ 0b0011011#7 rfl (by decide) (by decide)
theorem sraiw (rd : Reg) (rs1 : Reg) (shamt : BitVec 5) : Statement (.sraiw rd rs1 shamt) :=
  of_opcode _ 0b0011011#7 rfl (by decide) (by decide)
theorem addw (rd : Reg) (rs1 : Reg) (rs2 : Reg) : Statement (.addw rd rs1 rs2) :=
  of_opcode _ 0b0111011#7 rfl (by decide) (by decide)
theorem subw (rd : Reg) (rs1 : Reg) (rs2 : Reg) : Statement (.subw rd rs1 rs2) :=
  of_opcode _ 0b0111011#7 rfl (by decide) (by decide)
theorem sllw (rd : Reg) (rs1 : Reg) (rs2 : Reg) : Statement (.sllw rd rs1 rs2) :=
  of_opcode _ 0b0111011#7 rfl (by decide) (by decide)
theorem srlw (rd : Reg) (rs1 : Reg) (rs2 : Reg) : Statement (.srlw rd rs1 rs2) :=
  of_opcode _ 0b0111011#7 rfl (by decide) (by decide)
theorem sraw (rd : Reg) (rs1 : Reg) (rs2 : Reg) : Statement (.sraw rd rs1 rs2) :=
  of_opcode _ 0b0111011#7 rfl (by decide) (by decide)
theorem mulw (rd : Reg) (rs1 : Reg) (rs2 : Reg) : Statement (.mulw rd rs1 rs2) :=
  of_opcode _ 0b0111011#7 rfl (by decide) (by decide)
theorem divw (rd : Reg) (rs1 : Reg) (rs2 : Reg) : Statement (.divw rd rs1 rs2) :=
  of_opcode _ 0b0111011#7 rfl (by decide) (by decide)
theorem divuw (rd : Reg) (rs1 : Reg) (rs2 : Reg) : Statement (.divuw rd rs1 rs2) :=
  of_opcode _ 0b0111011#7 rfl (by decide) (by decide)
theorem remw (rd : Reg) (rs1 : Reg) (rs2 : Reg) : Statement (.remw rd rs1 rs2) :=
  of_opcode _ 0b0111011#7 rfl (by decide) (by decide)
theorem remuw (rd : Reg) (rs1 : Reg) (rs2 : Reg) : Statement (.remuw rd rs1 rs2) :=
  of_opcode _ 0b0111011#7 rfl (by decide) (by decide)
theorem flw (rd : Reg) (rs1 : Reg) (imm12 : BitVec 12) : Statement (.flw rd rs1 imm12) :=
  of_opcode _ 0b0000111#7 rfl (by decide) (by decide)
theorem fld (rd : Reg) (rs1 : Reg) (imm12 : BitVec 12) : Statement (.fld rd rs1 imm12) :=
  of_opcode _ 0b0000111#7 rfl (by decide) (by decide)
theorem fsw (rs1 : Reg) (rs2 : Reg) (imm12 : BitVec 12) : Statement (.fsw rs1 rs2 imm12) :=
  of_opcode _ 0b0100111#7 rfl (by decide) (by decide)
theorem fsd (rs1 : Reg) (rs2 : Reg) (imm12 : BitVec 12) : Statement (.fsd rs1 rs2 imm12) :=
  of_opcode _ 0b0100111#7 rfl (by decide) (by decide)
theorem faddS (rd : Reg) (rs1 : Reg) (rs2 : Reg) (rm : BitVec 3) : Statement (.faddS rd rs1 rs2 rm) :=
  of_opcode _ 0b1010011#7 rfl (by decide) (by decide)
theorem fsubS (rd : Reg) (rs1 : Reg) (rs2 : Reg) (rm : BitVec 3) : Statement (.fsubS rd rs1 rs2 rm) :=
  of_opcode _ 0b1010011#7 rfl (by decide) (by decide)
theorem fmulS (rd : Reg) (rs1 : Reg) (rs2 : Reg) (rm : BitVec 3) : Statement (.fmulS rd rs1 rs2 rm) :=
  of_opcode _ 0b1010011#7 rfl (by decide) (by decide)
theorem fdivS (rd : Reg) (rs1 : Reg) (rs2 : Reg) (rm : BitVec 3) : Statement (.fdivS rd rs1 rs2 rm) :=
  of_opcode _ 0b1010011#7 rfl (by decide) (by decide)
theorem fsqrtS (rd : Reg) (rs1 : Reg) (rm : BitVec 3) : Statement (.fsqrtS rd rs1 rm) :=
  of_opcode _ 0b1010011#7 rfl (by decide) (by decide)
theorem fminS (rd : Reg) (rs1 : Reg) (rs2 : Reg) : Statement (.fminS rd rs1 rs2) :=
  of_opcode _ 0b1010011#7 rfl (by decide) (by decide)
theorem fmaxS (rd : Reg) (rs1 : Reg) (rs2 : Reg) : Statement (.fmaxS rd rs1 rs2) :=
  of_opcode _ 0b1010011#7 rfl (by decide) (by decide)
theorem faddD (rd : Reg) (rs1 : Reg) (rs2 : Reg) (rm : BitVec 3) : Statement (.faddD rd rs1 rs2 rm) :=
  of_opcode _ 0b1010011#7 rfl (by decide) (by decide)
theorem fsubD (rd : Reg) (rs1 : Reg) (rs2 : Reg) (rm : BitVec 3) : Statement (.fsubD rd rs1 rs2 rm) :=
  of_opcode _ 0b1010011#7 rfl (by decide) (by decide)
theorem fmulD (rd : Reg) (rs1 : Reg) (rs2 : Reg) (rm : BitVec 3) : Statement (.fmulD rd rs1 rs2 rm) :=
  of_opcode _ 0b1010011#7 rfl (by decide) (by decide)
theorem fdivD (rd : Reg) (rs1 : Reg) (rs2 : Reg) (rm : BitVec 3) : Statement (.fdivD rd rs1 rs2 rm) :=
  of_opcode _ 0b1010011#7 rfl (by decide) (by decide)
theorem fsqrtD (rd : Reg) (rs1 : Reg) (rm : BitVec 3) : Statement (.fsqrtD rd rs1 rm) :=
  of_opcode _ 0b1010011#7 rfl (by decide) (by decide)
theorem fminD (rd : Reg) (rs1 : Reg) (rs2 : Reg) : Statement (.fminD rd rs1 rs2) :=
  of_opcode _ 0b1010011#7 rfl (by decide) (by decide)
theorem fmaxD (rd : Reg) (rs1 : Reg) (rs2 : Reg) : Statement (.fmaxD rd rs1 rs2) :=
  of_opcode _ 0b1010011#7 rfl (by decide) (by decide)
theorem fmaddS (rd : Reg) (rs1 : Reg) (rs2 : Reg) (rs3 : Reg) (rm : BitVec 3) : Statement (.fmaddS rd rs1 rs2 rs3 rm) :=
  of_opcode _ 0b1000011#7 rfl (by decide) (by decide)
theorem fmsubS (rd : Reg) (rs1 : Reg) (rs2 : Reg) (rs3 : Reg) (rm : BitVec 3) : Statement (.fmsubS rd rs1 rs2 rs3 rm) :=
  of_opcode _ 0b1000111#7 rfl (by decide) (by decide)
theorem fnmsubS (rd : Reg) (rs1 : Reg) (rs2 : Reg) (rs3 : Reg) (rm : BitVec 3) : Statement (.fnmsubS rd rs1 rs2 rs3 rm) :=
  of_opcode _ 0b1001011#7 rfl (by decide) (by decide)
theorem fnmaddS (rd : Reg) (rs1 : Reg) (rs2 : Reg) (rs3 : Reg) (rm : BitVec 3) : Statement (.fnmaddS rd rs1 rs2 rs3 rm) :=
  of_opcode _ 0b1001111#7 rfl (by decide) (by decide)
theorem fmaddD (rd : Reg) (rs1 : Reg) (rs2 : Reg) (rs3 : Reg) (rm : BitVec 3) : Statement (.fmaddD rd rs1 rs2 rs3 rm) :=
  of_opcode _ 0b1000011#7 rfl (by decide) (by decide)
theorem fmsubD (rd : Reg) (rs1 : Reg) (rs2 : Reg) (rs3 : Reg) (rm : BitVec 3) : Statement (.fmsubD rd rs1 rs2 rs3 rm) :=
  of_opcode _ 0b1000111#7 rfl (by decide) (by decide)
theorem fnmsubD (rd : Reg) (rs1 : Reg) (rs2 : Reg) (rs3 : Reg) (rm : BitVec 3) : Statement (.fnmsubD rd rs1 rs2 rs3 rm) :=
  of_opcode _ 0b1001011#7 rfl (by decide) (by decide)
theorem fnmaddD (rd : Reg) (rs1 : Reg) (rs2 : Reg) (rs3 : Reg) (rm : BitVec 3) : Statement (.fnmaddD rd rs1 rs2 rs3 rm) :=
  of_opcode _ 0b1001111#7 rfl (by decide) (by decide)
theorem fsgnjS (rd : Reg) (rs1 : Reg) (rs2 : Reg) : Statement (.fsgnjS rd rs1 rs2) :=
  of_opcode _ 0b1010011#7 rfl (by decide) (by decide)
theorem fsgnjnS (rd : Reg) (rs1 : Reg) (rs2 : Reg) : Statement (.fsgnjnS rd rs1 rs2) :=
  of_opcode _ 0b1010011#7 rfl (by decide) (by decide)
theorem fsgnjxS (rd : Reg) (rs1 : Reg) (rs2 : Reg) : Statement (.fsgnjxS rd rs1 rs2) :=
  of_opcode _ 0b1010011#7 rfl (by decide) (by decide)
theorem fsgnjD (rd : Reg) (rs1 : Reg) (rs2 : Reg) : Statement (.fsgnjD rd rs1 rs2) :=
  of_opcode _ 0b1010011#7 rfl (by decide) (by decide)
theorem fsgnjnD (rd : Reg) (rs1 : Reg) (rs2 : Reg) : Statement (.fsgnjnD rd rs1 rs2) :=
  of_opcode _ 0b1010011#7 rfl (by decide) (by decide)
theorem fsgnjxD (rd : Reg) (rs1 : Reg) (rs2 : Reg) : Statement (.fsgnjxD rd rs1 rs2) :=
  of_opcode _ 0b1010011#7 rfl (by decide) (by decide)
theorem fcvtSD (rd : Reg) (rs1 : Reg) (rm : BitVec 3) : Statement (.fcvtSD rd rs1 rm) :=
  of_opcode _ 0b1010011#7 rfl (by decide) (by decide)
theorem fcvtDS (rd : Reg) (rs1 : Reg) (rm : BitVec 3) : Statement (.fcvtDS rd rs1 rm) :=
  of_opcode _ 0b1010011#7 rfl (by decide) (by decide)
theorem fcvtSL (rd : Reg) (rs1 : Reg) (rm : BitVec 3) : Statement (.fcvtSL rd rs1 rm) :=
  of_opcode _ 0b1010011#7 rfl (by decide) (by decide)
theorem fcvtSLU (rd : Reg) (rs1 : Reg) (rm : BitVec 3) : Statement (.fcvtSLU rd rs1 rm) :=
  of_opcode _ 0b1010011#7 rfl (by decide) (by decide)
theorem fcvtSW (rd : Reg) (rs1 : Reg) (rm : BitVec 3) : Statement (.fcvtSW rd rs1 rm) :=
  of_opcode _ 0b1010011#7 rfl (by decide) (by decide)
theorem fcvtSWU (rd : Reg) (rs1 : Reg) (rm : BitVec 3) : Statement (.fcvtSWU rd rs1 rm) :=
  of_opcode _ 0b1010011#7 rfl (by decide) (by decide)
theorem fcvtDL (rd : Reg) (rs1 : Reg) (rm : BitVec 3) : Statement (.fcvtDL rd rs1 rm) :=
  of_opcode _ 0b1010011#7 rfl (by decide) (by decide)
theorem fcvtDLU (rd : Reg) (rs1 : Reg) (rm : BitVec 3) : Statement (.fcvtDLU rd rs1 rm) :=
  of_opcode _ 0b1010011#7 rfl (by decide) (by decide)
theorem fcvtDW (rd : Reg) (rs1 : Reg) (rm : BitVec 3) : Statement (.fcvtDW rd rs1 rm) :=
  of_opcode _ 0b1010011#7 rfl (by decide) (by decide)
theorem fcvtDWU (rd : Reg) (rs1 : Reg) (rm : BitVec 3) : Statement (.fcvtDWU rd rs1 rm) :=
  of_opcode _ 0b1010011#7 rfl (by decide) (by decide)
theorem mxtfS (rd : Reg) (rs1 : Reg) : Statement (.mxtfS rd rs1) :=
  of_opcode _ 0b1010011#7 rfl (by decide) (by decide)
theorem mxtfD (rd : Reg) (rs1 : Reg) : Statement (.mxtfD rd rs1) :=
  of_opcode _ 0b1010011#7 rfl (by decide) (by decide)
theorem mtfsr (rd : Reg) (rs1 : Reg) : Statement (.mtfsr rd rs1) :=
  of_opcode _ 0b1010011#7 rfl (by decide) (by decide)
theorem fcvtLS (rd : Reg) (rs1 : Reg) (rm : BitVec 3) : Statement (.fcvtLS rd rs1 rm) :=
  of_opcode _ 0b1010011#7 rfl (by decide) (by decide)
theorem fcvtLUS (rd : Reg) (rs1 : Reg) (rm : BitVec 3) : Statement (.fcvtLUS rd rs1 rm) :=
  of_opcode _ 0b1010011#7 rfl (by decide) (by decide)
theorem fcvtWS (rd : Reg) (rs1 : Reg) (rm : BitVec 3) : Statement (.fcvtWS rd rs1 rm) :=
  of_opcode _ 0b1010011#7 rfl (by decide) (by decide)
theorem fcvtWUS (rd : Reg) (rs1 : Reg) (rm : BitVec 3) : Statement (.fcvtWUS rd rs1 rm) :=
  of_opcode _ 0b1010011#7 rfl (by decide) (by decide)
theorem fcvtLD (rd : Reg) (rs1 : Reg) (rm : BitVec 3) : Statement (.fcvtLD rd rs1 rm) :=
  of_opcode _ 0b1010011#7 rfl (by decide) (by decide)
theorem fcvtLUD (rd : Reg) (rs1 : Reg) (rm : BitVec 3) : Statement (.fcvtLUD rd rs1 rm) :=
  of_opcode _ 0b1010011#7 rfl (by decide) (by decide)
theorem fcvtWD (rd : Reg) (rs1 : Reg) (rm : BitVec 3) : Statement (.fcvtWD rd rs1 rm) :=
  of_opcode _ 0b1010011#7 rfl (by decide) (by decide)
theorem fcvtWUD (rd : Reg) (rs1 : Reg) (rm : BitVec 3) : Statement (.fcvtWUD rd rs1 rm) :=
  of_opcode _ 0b1010011#7 rfl (by decide) (by decide)
theorem mftxS (rd : Reg) (rs2 : Reg) : Statement (.mftxS rd rs2) :=
  of_opcode _ 0b1010011#7 rfl (by decide) (by decide)
theorem mftxD (rd : Reg) (rs2 : Reg) : Statement (.mftxD rd rs2) :=
  of_opcode _ 0b1010011#7 rfl (by decide) (by decide)
theorem mffsr (rd : Reg) : Statement (.mffsr rd) :=
  of_opcode _ 0b1010011#7 rfl (by decide) (by decide)
theorem feqS (rd : Reg) (rs1 : Reg) (rs2 : Reg) : Statement (.feqS rd rs1 rs2) :=
  of_opcode _ 0b1010011#7 rfl (by decide) (by decide)
theorem fltS (rd : Reg) (rs1 : Reg) (rs2 : Reg) : Statement (.fltS rd rs1 rs2) :=
  of_opcode _ 0b1010011#7 rfl (by decide) (by decide)
theorem fleS (rd : Reg) (rs1 : Reg) (rs2 : Reg) : Statement (.fleS rd rs1 rs2) :=
  of_opcode _ 0b1010011#7 rfl (by decide) (by decide)
theorem feqD (rd : Reg) (rs1 : Reg) (rs2 : Reg) : Statement (.feqD rd rs1 rs2) :=
  of_opcode _ 0b1010011#7 rfl (by decide) (by decide)
theorem fltD (rd : Reg) (rs1 : Reg) (rs2 : Reg) : Statement (.fltD rd rs1 rs2) :=
  of_opcode _ 0b1010011#7 rfl (by decide) (by decide)
theorem fleD (rd : Reg) (rs1 : Reg) (rs2 : Reg) : Statement (.fleD rd rs1 rs2) :=
  of_opcode _ 0b1010011#7 rfl (by decide) (by decide)
theorem fenceI (rd : Reg) (rs1 : Reg) (imm12 : BitVec 12) : Statement (.fenceI rd rs1 imm12) :=
  of_opcode _ 0b0101111#7 rfl (by decide) (by decide)
theorem fence (rd : Reg) (rs1 : Reg) (imm12 : BitVec 12) : Statement (.fence rd rs1 imm12) :=
  of_opcode _ 0b0101111#7 rfl (by decide) (by decide)
theorem syscall : Statement .syscall :=
  of_opcode _ 0b1110111#7 rfl (by decide) (by decide)
theorem brk : Statement .brk :=
  of_opcode _ 0b1110111#7 rfl (by decide) (by decide)
theorem rdcycle (rd : Reg) : Statement (.rdcycle rd) :=
  of_opcode _ 0b1110111#7 rfl (by decide) (by decide)
theorem rdtime (rd : Reg) : Statement (.rdtime rd) :=
  of_opcode _ 0b1110111#7 rfl (by decide) (by decide)
theorem rdinstret (rd : Reg) : Statement (.rdinstret rd) :=
  of_opcode _ 0b1110111#7 rfl (by decide) (by decide)

end Sys2Proof.Laws.Encoding
end

