-- ==== Sys2Proof/Tests/Slice0.lean ====
section
/-! SUPPORT. The model's own tests: the checks of WellFormed, a word written out for every constructor, one step for the
examples of spec/95_test_vectors.md and spec/95_test_vectors_fp.md, and a witness for every statement with hypotheses. -/

/- The tests below are evaluated by the kernel one after another: run side by side they ask for more threads than a build of
the package as one text may have. -/
set_option Elab.async false

namespace Sys2Proof.Tests

open Sys2Proof Sys2Proof.Machine

/-! ### WellFormed refuses an ill-formed term, check by check -/

/-- An RV64-only instruction on RV32 (R91 step 3). -/
theorem test_variant_refused : (Instr.ld 1 2 0).wellFormed .rv32 = false ∧ (Instr.ld 1 2 0).wellFormed .rv64 = true ∧
    (Instr.amoaddD 1 2 3).wellFormed .rv32 = false ∧ (Instr.mxtfD 1 2).wellFormed .rv32 = false ∧
    (Instr.fld 1 2 0).wellFormed .rv32 = true := by decide

/-- A shift amount of 32 or more on RV32 (R189). -/
theorem test_shamt_refused : (Instr.slli 1 2 32).wellFormed .rv32 = false ∧ (Instr.slli 1 2 31).wellFormed .rv32 = true ∧
    (Instr.srli 1 2 63).wellFormed .rv32 = false ∧ (Instr.srai 1 2 63).wellFormed .rv64 = true := by decide

/-- A static rounding mode of 101 or 110 (R90, R293); 111 is the dynamic mode. -/
theorem test_rm_refused : (Instr.faddS 1 2 3 5).wellFormed .rv64 = false ∧ (Instr.fcvtDS 1 2 6).wellFormed .rv64 = false ∧
    (Instr.fmaddD 1 2 3 4 7).wellFormed .rv64 = true ∧ (Instr.fsqrtS 1 2 4).wellFormed .rv32 = true := by decide

/-! ### Decoding: the word of every constructor, written out field by field -/

/-- Each word decodes to its instruction, which encodes to the word. -/
def readsAs (l : List (IWord × Instr)) : Bool := l.all fun p => decide (decode p.1 = .ok p.2) && decide (encode p.2 = p.1)

/-- The words of R105 to R107. -/
theorem test_decode_control : readsAs [
    (0b1010100110001110000111001_1100111#32, .j 0x1531C39),
    (0b1010100110001110000111001_1101111#32, .jal 0x1531C39),
    (0b10001_00010_00011_0100101_000_1100011#32, .beq 2 3 0x8A5),
    (0b10001_00010_00011_0100101_001_1100011#32, .bne 2 3 0x8A5),
    (0b10001_00010_00011_0100101_100_1100011#32, .blt 2 3 0x8A5),
    (0b10001_00010_00011_0100101_101_1100011#32, .bge 2 3 0x8A5),
    (0b10001_00010_00011_0100101_110_1100011#32, .bltu 2 3 0x8A5),
    (0b10001_00010_00011_0100101_111_1100011#32, .bgeu 2 3 0x8A5),
    (0b00001_00010_100010100101_000_1101011#32, .jalrC 1 2 0x8A5),
    (0b00001_00010_100010100101_001_1101011#32, .jalrR 1 2 0x8A5),
    (0b00001_00010_100010100101_010_1101011#32, .jalrJ 1 2 0x8A5),
    (0b00001_00000_000000000000_100_1101011#32, .rdnpc 1)] = true := by
  decide +kernel

/-- The words of R94 and R95. -/
theorem test_decode_memory : readsAs [
    (0b00001_00010_100010100101_000_0000011#32, .lb 1 2 0x8A5),
    (0b00001_00010_100010100101_001_0000011#32, .lh 1 2 0x8A5),
    (0b00001_00010_100010100101_010_0000011#32, .lw 1 2 0x8A5),
    (0b00001_00010_100010100101_011_0000011#32, .ld 1 2 0x8A5),
    (0b00001_00010_100010100101_100_0000011#32, .lbu 1 2 0x8A5),
    (0b00001_00010_100010100101_101_0000011#32, .lhu 1 2 0x8A5),
    (0b00001_00010_100010100101_110_0000011#32, .lwu 1 2 0x8A5),
    (0b10001_00010_00011_0100101_000_0100011#32, .sb 2 3 0x8A5),
    (0b10001_00010_00011_0100101_001_0100011#32, .sh 2 3 0x8A5),
    (0b10001_00010_00011_0100101_010_0100011#32, .sw 2 3 0x8A5),
    (0b10001_00010_00011_0100101_011_0100011#32, .sd 2 3 0x8A5)] = true := by
  decide +kernel

/-- The words of R97. -/
theorem test_decode_atomic : readsAs [
    (0b00001_00010_00011_0000000_010_0101011#32, .amoaddW 1 2 3),
    (0b00001_00010_00011_0000001_010_0101011#32, .amoswapW 1 2 3),
    (0b00001_00010_00011_0000010_010_0101011#32, .amoandW 1 2 3),
    (0b00001_00010_00011_0000011_010_0101011#32, .amoorW 1 2 3),
    (0b00001_00010_00011_0000100_010_0101011#32, .amominW 1 2 3),
    (0b00001_00010_00011_0000101_010_0101011#32, .amomaxW 1 2 3),
    (0b00001_00010_00011_0000110_010_0101011#32, .amominuW 1 2 3),
    (0b00001_00010_00011_0000111_010_0101011#32, .amomaxuW 1 2 3),
    (0b00001_00010_00011_0000000_011_0101011#32, .amoaddD 1 2 3),
    (0b00001_00010_00011_0000001_011_0101011#32, .amoswapD 1 2 3),
    (0b00001_00010_00011_0000010_011_0101011#32, .amoandD 1 2 3),
    (0b00001_00010_00011_0000011_011_0101011#32, .amoorD 1 2 3),
    (0b00001_00010_00011_0000100_011_0101011#32, .amominD 1 2 3),
    (0b00001_00010_00011_0000101_011_0101011#32, .amomaxD 1 2 3),
    (0b00001_00010_00011_0000110_011_0101011#32, .amominuD 1 2 3),
    (0b00001_00010_00011_0000111_011_0101011#32, .amomaxuD 1 2 3)] = true := by
  decide +kernel

/-- The words of R98, R100 and R101. -/
theorem test_decode_integer : readsAs [
    (0b00001_00010_100010100101_000_0010011#32, .addi 1 2 0x8A5),
    (0b00001_00010_100010100101_010_0010011#32, .slti 1 2 0x8A5),
    (0b00001_00010_100010100101_011_0010011#32, .sltiu 1 2 0x8A5),
    (0b00001_00010_100010100101_100_0010011#32, .xori 1 2 0x8A5),
    (0b00001_00010_100010100101_110_0010011#32, .ori 1 2 0x8A5),
    (0b00001_00010_100010100101_111_0010011#32, .andi 1 2 0x8A5),
    (0b00001_00010_000000_100101_001_0010011#32, .slli 1 2 37),
    (0b00001_00010_000000_100101_101_0010011#32, .srli 1 2 37),
    (0b00001_00010_000001_100101_101_0010011#32, .srai 1 2 37),
    (0b00001_00010_00011_0000000_000_0110011#32, .add 1 2 3),
    (0b00001_00010_00011_1000000_000_0110011#32, .sub 1 2 3),
    (0b00001_00010_00011_0000000_001_0110011#32, .sll 1 2 3),
    (0b00001_00010_00011_0000000_010_0110011#32, .slt 1 2 3),
    (0b00001_00010_00011_0000000_011_0110011#32, .sltu 1 2 3),
    (0b00001_00010_00011_0000000_100_0110011#32, .xor 1 2 3),
    (0b00001_00010_00011_0000000_101_0110011#32, .srl 1 2 3),
    (0b00001_00010_00011_1000000_101_0110011#32, .sra 1 2 3),
    (0b00001_00010_00011_0000000_110_0110011#32, .or 1 2 3),
    (0b00001_00010_00011_0000000_111_0110011#32, .and 1 2 3),
    (0b00001_00010_00011_0000001_000_0110011#32, .mul 1 2 3),
    (0b00001_00010_00011_0000001_001_0110011#32, .mulh 1 2 3),
    (0b00001_00010_00011_0000001_010_0110011#32, .mulhsu 1 2 3),
    (0b00001_00010_00011_0000001_011_0110011#32, .mulhu 1 2 3),
    (0b00001_00010_00011_0000001_100_0110011#32, .div 1 2 3),
    (0b00001_00010_00011_0000001_101_0110011#32, .divu 1 2 3),
    (0b00001_00010_00011_0000001_110_0110011#32, .rem 1 2 3),
    (0b00001_00010_00011_0000001_111_0110011#32, .remu 1 2 3),
    (0b00001_10011010101111001101_0110111#32, .lui 1 0x9ABCD)] = true := by
  decide +kernel

/-- The words of R99 and R102. -/
theorem test_decode_integer32 : readsAs [
    (0b00001_00010_100010100101_000_0011011#32, .addiw 1 2 0x8A5),
    (0b00001_00010_0000000_10101_001_0011011#32, .slliw 1 2 21),
    (0b00001_00010_0000000_10101_101_0011011#32, .srliw 1 2 21),
    (0b00001_00010_0000010_10101_101_0011011#32, .sraiw 1 2 21),
    (0b00001_00010_00011_0000000_000_0111011#32, .addw 1 2 3),
    (0b00001_00010_00011_1000000_000_0111011#32, .subw 1 2 3),
    (0b00001_00010_00011_0000000_001_0111011#32, .sllw 1 2 3),
    (0b00001_00010_00011_0000000_101_0111011#32, .srlw 1 2 3),
    (0b00001_00010_00011_1000000_101_0111011#32, .sraw 1 2 3),
    (0b00001_00010_00011_0000001_000_0111011#32, .mulw 1 2 3),
    (0b00001_00010_00011_0000001_100_0111011#32, .divw 1 2 3),
    (0b00001_00010_00011_0000001_101_0111011#32, .divuw 1 2 3),
    (0b00001_00010_00011_0000001_110_0111011#32, .remw 1 2 3),
    (0b00001_00010_00011_0000001_111_0111011#32, .remuw 1 2 3)] = true := by
  decide +kernel

/-- The words of R96. -/
theorem test_decode_fpMemory : readsAs [
    (0b00001_00010_100010100101_010_0000111#32, .flw 1 2 0x8A5),
    (0b00001_00010_100010100101_011_0000111#32, .fld 1 2 0x8A5),
    (0b10001_00010_00011_0100101_010_0100111#32, .fsw 2 3 0x8A5),
    (0b10001_00010_00011_0100101_011_0100111#32, .fsd 2 3 0x8A5)] = true := by
  decide +kernel

/-- The words of R103 and R104. -/
theorem test_decode_fpCompute : readsAs [
    (0b00001_00010_00011_00000_100_00_1010011#32, .faddS 1 2 3 4),
    (0b00001_00010_00011_00000_100_01_1010011#32, .faddD 1 2 3 4),
    (0b00001_00010_00011_00001_100_00_1010011#32, .fsubS 1 2 3 4),
    (0b00001_00010_00011_00001_100_01_1010011#32, .fsubD 1 2 3 4),
    (0b00001_00010_00011_00010_100_00_1010011#32, .fmulS 1 2 3 4),
    (0b00001_00010_00011_00010_100_01_1010011#32, .fmulD 1 2 3 4),
    (0b00001_00010_00011_00011_100_00_1010011#32, .fdivS 1 2 3 4),
    (0b00001_00010_00011_00011_100_01_1010011#32, .fdivD 1 2 3 4),
    (0b00001_00010_00000_00100_100_00_1010011#32, .fsqrtS 1 2 4),
    (0b00001_00010_00000_00100_100_01_1010011#32, .fsqrtD 1 2 4),
    (0b00001_00010_00011_11000_000_00_1010011#32, .fminS 1 2 3),
    (0b00001_00010_00011_11000_000_01_1010011#32, .fminD 1 2 3),
    (0b00001_00010_00011_11001_000_00_1010011#32, .fmaxS 1 2 3),
    (0b00001_00010_00011_11001_000_01_1010011#32, .fmaxD 1 2 3),
    (0b00001_00010_00011_10100_100_00_1000011#32, .fmaddS 1 2 3 20 4),
    (0b00001_00010_00011_10100_100_00_1000111#32, .fmsubS 1 2 3 20 4),
    (0b00001_00010_00011_10100_100_00_1001011#32, .fnmsubS 1 2 3 20 4),
    (0b00001_00010_00011_10100_100_00_1001111#32, .fnmaddS 1 2 3 20 4),
    (0b00001_00010_00011_10100_100_01_1000011#32, .fmaddD 1 2 3 20 4),
    (0b00001_00010_00011_10100_100_01_1000111#32, .fmsubD 1 2 3 20 4),
    (0b00001_00010_00011_10100_100_01_1001011#32, .fnmsubD 1 2 3 20 4),
    (0b00001_00010_00011_10100_100_01_1001111#32, .fnmaddD 1 2 3 20 4)] = true := by
  decide +kernel

/-- The words of R104. -/
theorem test_decode_fpMove : readsAs [
    (0b00001_00010_00011_00101_000_00_1010011#32, .fsgnjS 1 2 3),
    (0b00001_00010_00011_00101_000_01_1010011#32, .fsgnjD 1 2 3),
    (0b00001_00010_00011_00110_000_00_1010011#32, .fsgnjnS 1 2 3),
    (0b00001_00010_00011_00110_000_01_1010011#32, .fsgnjnD 1 2 3),
    (0b00001_00010_00011_00111_000_00_1010011#32, .fsgnjxS 1 2 3),
    (0b00001_00010_00011_00111_000_01_1010011#32, .fsgnjxD 1 2 3),
    (0b00001_00010_00000_10001_100_00_1010011#32, .fcvtSD 1 2 4),
    (0b00001_00010_00000_10000_100_01_1010011#32, .fcvtDS 1 2 4)] = true := by
  decide +kernel

/-- The words of R104. -/
theorem test_decode_intToFp : readsAs [
    (0b00001_00010_00000_01100_100_00_1010011#32, .fcvtSL 1 2 4),
    (0b00001_00010_00000_01101_100_00_1010011#32, .fcvtSLU 1 2 4),
    (0b00001_00010_00000_01110_100_00_1010011#32, .fcvtSW 1 2 4),
    (0b00001_00010_00000_01111_100_00_1010011#32, .fcvtSWU 1 2 4),
    (0b00001_00010_00000_01100_100_01_1010011#32, .fcvtDL 1 2 4),
    (0b00001_00010_00000_01101_100_01_1010011#32, .fcvtDLU 1 2 4),
    (0b00001_00010_00000_01110_100_01_1010011#32, .fcvtDW 1 2 4),
    (0b00001_00010_00000_01111_100_01_1010011#32, .fcvtDWU 1 2 4),
    (0b00001_00010_00000_11110_000_00_1010011#32, .mxtfS 1 2),
    (0b00001_00010_00000_11110_000_01_1010011#32, .mxtfD 1 2),
    (0b00001_00010_00000_11111_000_00_1010011#32, .mtfsr 1 2)] = true := by
  decide +kernel

/-- The words of R104. -/
theorem test_decode_fpToInt : readsAs [
    (0b00001_00010_00000_01000_100_00_1010011#32, .fcvtLS 1 2 4),
    (0b00001_00010_00000_01001_100_00_1010011#32, .fcvtLUS 1 2 4),
    (0b00001_00010_00000_01010_100_00_1010011#32, .fcvtWS 1 2 4),
    (0b00001_00010_00000_01011_100_00_1010011#32, .fcvtWUS 1 2 4),
    (0b00001_00010_00000_01000_100_01_1010011#32, .fcvtLD 1 2 4),
    (0b00001_00010_00000_01001_100_01_1010011#32, .fcvtLUD 1 2 4),
    (0b00001_00010_00000_01010_100_01_1010011#32, .fcvtWD 1 2 4),
    (0b00001_00010_00000_01011_100_01_1010011#32, .fcvtWUD 1 2 4),
    (0b00001_00000_00011_11100_000_00_1010011#32, .mftxS 1 3),
    (0b00001_00000_00011_11100_000_01_1010011#32, .mftxD 1 3),
    (0b00001_00000_00000_11101_000_00_1010011#32, .mffsr 1)] = true := by
  decide +kernel

/-- The words of R104. -/
theorem test_decode_fpCompare : readsAs [
    (0b00001_00010_00011_10101_000_00_1010011#32, .feqS 1 2 3),
    (0b00001_00010_00011_10101_000_01_1010011#32, .feqD 1 2 3),
    (0b00001_00010_00011_10110_000_00_1010011#32, .fltS 1 2 3),
    (0b00001_00010_00011_10110_000_01_1010011#32, .fltD 1 2 3),
    (0b00001_00010_00011_10111_000_00_1010011#32, .fleS 1 2 3),
    (0b00001_00010_00011_10111_000_01_1010011#32, .fleD 1 2 3)] = true := by
  decide +kernel

/-- The words of R108. -/
theorem test_decode_fence : readsAs [
    (0b00001_00010_100010100101_001_0101111#32, .fenceI 1 2 0x8A5),
    (0b00001_00010_100010100101_010_0101111#32, .fence 1 2 0x8A5)] = true := by
  decide +kernel

/-- The words of R109. -/
theorem test_decode_system : readsAs [
    (0b00000_00000_00000_0000000_000_1110111#32, .syscall),
    (0b00000_00000_00000_0000000_001_1110111#32, .brk),
    (0b00001_00000_00000_0000000_100_1110111#32, .rdcycle 1),
    (0b00001_00000_00000_0000001_100_1110111#32, .rdtime 1),
    (0b00001_00000_00000_0000010_100_1110111#32, .rdinstret 1)] = true := by
  decide +kernel

/-- Words of unassigned encodings: low bits not 11 and bits 4:2 of 111 (R81), a function code of no row (R111), fmt 10
(R90), a field fixed at zero that is not (R112). -/
theorem test_decode_refuses : decode 0 = .error .notThirtyTwoBit ∧ decode 0x0000007F = .error .longerThanThirtyTwoBit ∧
    decode 0x08800383 = .error .unassigned ∧ decode 0x08860153 = .error .unassigned ∧
    decode 0x08878853 = .error .unassigned ∧ decode 0x0000000B = .error .unassigned := by decide +kernel

/-- A table word given as bytes on either byte order, and too few bytes (R54, R55). -/
theorem test_decode_bytes : decodeTableWord 32 0x08801413 = some (.addi 1 2 5) ∧
    decodeBytes .little [0x13, 0x14, 0x80, 0x08, 0xAA] = .ok (.addi 1 2 5, [0xAA]) ∧
    decodeBytes .big [0x14, 0x13, 0x08, 0x80] = .ok (.addi 1 2 5, []) ∧
    decodeBytes .big [0x14, 0x13, 0x08] = .error .tooFewBytes := by decide +kernel

/-! ### One step -/

/-- A small state of one hardware thread and what one step from it gives.  What is not listed is unchanged; `trap` is the
exception that is taken instead. -/
structure Case where
  word   : Nat
  xlen   : Xlen := .rv64
  endian : Endian := .little
  pc     : XWord := 0x1000
  x      : List (Reg × XWord) := []
  f      : List (Reg × FReg) := []
  mem    : List Host.Cell := []
  fsr    : BitVec 32 := 0
  newX   : List (Reg × XWord) := []
  newF   : List (Reg × FReg) := []
  newMem : List Host.Cell := []
  newFsr : Option (BitVec 32) := none
  newPc  : Option XWord := none
  trap   : Option Exc := none

/-- The state of a case, with the defaults of R302 for the floating-point configuration. -/
def Case.start (c : Case) : State :=
  let s := State.start { Config.default with xlen := c.xlen, endian := c.endian } TrapHandler.default
    (Vector.replicate 32 0) (Vector.replicate 32 (.d 0)) c.pc c.fsr 0 0 0
    (c.mem.foldl (fun m e => Memory.write m e.1 e.2) [])
  let s := c.f.foldl (fun s e => s.writeF e.1 e.2) (c.x.foldl (fun s e => s.writeX e.1 e.2) s)
  s.withFetchWord 32 c.word

/-- The step gives what the case says, and changes nothing else that a program can see. -/
def Case.passes (c : Case) : Bool :=
  let s := c.start
  match step s with
  | .next t =>
    let want := c.newF.foldl (fun s e => s.writeF e.1 e.2) (c.newX.foldl (fun s e => s.writeX e.1 e.2) s)
    t.x.toList == want.x.toList && t.f.toList == want.f.toList && t.fsr == c.newFsr.getD s.fsr &&
      t.mem == c.newMem.foldl (fun m e => Memory.write m e.1 e.2) s.mem &&
      (match c.trap with
      | none => t.pc == c.newPc.getD s.pcPlus4 && t.instret == 1 && !t.halted && t.traps == []
      | some e => t.traps == [⟨e, s.pc⟩] && t.pc == s.pc && t.instret == 0 && t.halted)
  | _ => false

def passAll (l : List Case) : Bool := l.all Case.passes

/-- Image A of spec/95_test_vectors.md. -/
def imageA : List Host.Cell :=
  (List.range 16).zip [0x80, 0x91, 0xA2, 0xB3, 0xC4, 0xD5, 0xE6, 0xF7, 0x08, 0x19, 0x2A, 0x3B, 0x4C, 0x5D, 0x6E, 0x7F]
    |>.map fun c => (0x2000 + c.1, c.2)

/-- spec/95_test_vectors.md 2.1: LS1, LS13, LS4, LS22, LS17, LS10, LS26, LS46, LS51. -/
theorem test_loads : passAll [
    { word := 0x08800003, x := [(2, 0x2000)], mem := imageA, newX := [(1, 0xFFFFFFFFFFFFFF80)] },
    { word := 0x08800083, endian := .big, x := [(2, 0x2000)], mem := imageA, newX := [(1, 0xFFFFFFFFFFFF8091)] },
    { word := 0x08800283, x := [(2, 0x2000)], mem := imageA, newX := [(1, 0x9180)] },
    { word := 0x10802103, x := [(2, 0x2000)], mem := imageA, newX := [(2, 0x3B2A1908)] },
    { word := 0x08800303, endian := .big, x := [(2, 0x2000)], mem := imageA, newX := [(1, 0x8091A2B3)] },
    { word := 0x08800D83, x := [(2, 0x2000)], mem := imageA, newX := [(1, 0x2A1908F7E6D5C4B3)] },
    { word := 0x08800283, xlen := .rv32, x := [(2, 0xFFFFFFFF)], mem := [(0x0, 0x12), (0xFFFFFFFF, 0x34)],
      newX := [(1, 0x1234)] },
    { word := 0x08801107, x := [(2, 0x2000)], mem := [(0x2006, 0x80), (0x2007, 0x3F)], newF := [(1, .s 0x3F800000)] },
    { word := 0x08802187, xlen := .rv32, endian := .big, x := [(2, 0x2000)], mem := [(0x200E, 0xF0), (0x200F, 0x3F)],
      newF := [(1, .d 0xF03F)] }] = true := by
  decide +kernel

/-- spec/95_test_vectors.md 2.1: LS36, LS34, LS43, LS38, LS48, LS53. -/
theorem test_stores : passAll [
    { word := 0x008608A3, endian := .big, x := [(2, 0x2000), (3, 0x1122334455667788)],
      newMem := [(0x2002, 0x77), (0x2003, 0x88)] },
    { word := 0x00860523, x := [(2, 0x2000), (3, 0x1122334455667788)],
      newMem := [(0x2001, 0x88), (0x2002, 0x77), (0x2003, 0x66), (0x2004, 0x55)] },
    { word := 0xF887FCA3, xlen := .rv32, x := [(2, 0x0), (3, 0xBEEF)], newMem := [(0xFFFFFFFF, 0xEF), (0x0, 0xBE)] },
    { word := 0x008601A3, endian := .big, x := [(2, 0x2000), (3, 0x1122334455667788)],
      newMem := [(0x2000, 0x11), (0x2001, 0x22), (0x2002, 0x33), (0x2003, 0x44), (0x2004, 0x55), (0x2005, 0x66), (0x2006, 0x77), (0x2007, 0x88)] },
    { word := 0x00C40127, x := [(3, 0x2000)], f := [(2, .s 0xC0490FDB)],
      newMem := [(0x2000, 0xDB), (0x2001, 0xF), (0x2002, 0x49), (0x2003, 0xC0)] },
    { word := 0x00C401A7, xlen := .rv32, endian := .big, x := [(3, 0x2000)], f := [(2, .d 0x400921FB54442D18)],
      newMem := [(0x2000, 0x40), (0x2001, 0x9), (0x2002, 0x21), (0x2003, 0xFB), (0x2004, 0x54), (0x2005, 0x44), (0x2006, 0x2D), (0x2007, 0x18)] }] = true := by
  decide +kernel

/-- spec/95_test_vectors.md 2.2: AM18, AM3, AM19, AM20, AM21, AM23, AM10, AM13, AM15. -/
theorem test_atomics : passAll [
    { word := 0x394C012B, x := [(5, 0x2000), (6, 0xAAAAAAAA00000001)],
      mem := [(0x2000, 0xFF), (0x2001, 0xFF), (0x2002, 0xFF), (0x2003, 0x7F)], newX := [(7, 0x7FFFFFFF)],
      newMem := [(0x2000, 0x0), (0x2001, 0x0), (0x2002, 0x0), (0x2003, 0x80)] },
    { word := 0x394C092B, x := [(5, 0x2000), (6, 0xF0F0F0F)],
      mem := [(0x2000, 0xFE), (0x2001, 0xFF), (0x2002, 0xFF), (0x2003, 0xFF)], newX := [(7, 0xFFFFFFFFFFFFFFFE)],
      newMem := [(0x2000, 0xE), (0x2001, 0xF), (0x2002, 0xF), (0x2003, 0xF)] },
    { word := 0x394C152B, x := [(5, 0x2000), (6, 0xFFFFFFFF)], mem := [(0x2000, 0x1)], newX := [(7, 0x1)],
      newMem := [(0x2000, 0x1), (0x2001, 0x0), (0x2002, 0x0), (0x2003, 0x0)] },
    { word := 0x394C1D2B, x := [(5, 0x2000), (6, 0xFFFFFFFF)], mem := [(0x2000, 0x1)], newX := [(7, 0x1)],
      newMem := [(0x2000, 0xFF), (0x2001, 0xFF), (0x2002, 0xFF), (0x2003, 0xFF)] },
    { word := 0x394C012B, endian := .big, x := [(5, 0x2000), (6, 0x1)], mem := [(0x2003, 0xFF)], newX := [(7, 0xFF)],
      newMem := [(0x2000, 0x0), (0x2001, 0x0), (0x2002, 0x1), (0x2003, 0x0)] },
    { word := 0x294C012B, x := [(5, 0x2000), (6, 0x1)], mem := [(0x2000, 0x1)], newX := [(5, 0x1)],
      newMem := [(0x2000, 0x2), (0x2001, 0x0), (0x2002, 0x0), (0x2003, 0x0)] },
    { word := 0x394C05AB, x := [(5, 0x2000), (6, 0x1122334455667788)], mem := [(0x2007, 0x80)],
      newX := [(7, 0x8000000000000000)],
      newMem := [(0x2000, 0x88), (0x2001, 0x77), (0x2002, 0x66), (0x2003, 0x55), (0x2004, 0x44), (0x2005, 0x33), (0x2006, 0x22), (0x2007, 0x11)] },
    { word := 0x394C11AB, x := [(5, 0x2000), (6, 0x1)], mem := [(0x2007, 0x80)], newX := [(7, 0x8000000000000000)],
      newMem := [(0x2000, 0x0), (0x2001, 0x0), (0x2002, 0x0), (0x2003, 0x0), (0x2004, 0x0), (0x2005, 0x0), (0x2006, 0x0), (0x2007, 0x80)] },
    { word := 0x394C19AB, x := [(5, 0x2000), (6, 0x1)], mem := [(0x2007, 0x80)], newX := [(7, 0x8000000000000000)],
      newMem := [(0x2000, 0x1), (0x2001, 0x0), (0x2002, 0x0), (0x2003, 0x0), (0x2004, 0x0), (0x2005, 0x0), (0x2006, 0x0), (0x2007, 0x0)] }] = true := by
  decide +kernel

/-- spec/95_test_vectors.md 2.3: II7, II10, II14, II19, II36, LU8. -/
theorem test_immediates : passAll [
    { word := 0x089FFC13, xlen := .rv32, x := [(2, 0x7FFFFFFF)], newX := [(1, 0x800007FE)] },
    { word := 0x00801413, x := [(2, 0x1)] },
    { word := 0x08BFFD13, x := [(2, 0xFFFFFFFFFFFFFFFE)], newX := [(1, 0x1)] },
    { word := 0x08BFFD93, xlen := .rv32, x := [(2, 0xFFFFFFFE)], newX := [(1, 0x1)] },
    { word := 0x08A00313, x := [(2, 0x123)], newX := [(1, 0xFFFFFFFFFFFFF923)] },
    { word := 0x08000037, newX := [(1, 0x0)] }] = true := by
  decide +kernel

/-- spec/95_test_vectors.md 2.3: SI7, SI16, SI26, IW3, IW14. -/
theorem test_constant_shifts : passAll [
    { word := 0x08808093, x := [(2, 0x3)], newX := [(1, 0x300000000)] },
    { word := 0x0880FE93, x := [(2, 0x8000000000000001)], newX := [(1, 0x1)] },
    { word := 0x0881FE93, x := [(2, 0x8000000000000001)], newX := [(1, 0xFFFFFFFFFFFFFFFF)] },
    { word := 0x0880041B, x := [(2, 0x7FFFFFFF)], newX := [(1, 0xFFFFFFFF80000000)] },
    { word := 0x08817E9B, x := [(2, 0xFFFFFFFF7FFFFFFF)], newX := [(1, 0x0)] }] = true := by
  decide +kernel

/-- spec/95_test_vectors.md 2.4: IR8, IR17, IR26, IR33, IR45, IR49. -/
theorem test_registers : passAll [
    { word := 0x08870033, x := [(2, 0x80000000), (3, 0x1)], newX := [(1, 0x7FFFFFFF)] },
    { word := 0x088601B3, x := [(2, 0xFFFFFFFFFFFFFFFF), (3, 0x1)], newX := [(1, 0x0)] },
    { word := 0x08840133, xlen := .rv32, x := [(2, 0x9)], newX := [(1, 0x0)] },
    { word := 0x08860233, x := [(2, 0xFF00FF00FF00FF00), (3, 0xFF00FF00FF00FF0)], newX := [(1, 0xF0F0F0F0F0F0F0F0)] },
    { word := 0x088602B3, x := [(2, 0x8000000000000001), (3, 0x3F)], newX := [(1, 0x1)] },
    { word := 0x188702B3, x := [(2, 0x8000000000000001), (3, 0x1)], newX := [(3, 0xC000000000000000)] }] = true := by
  decide +kernel

/-- spec/95_test_vectors.md 2.4: RW4, RW7, RW12. -/
theorem test_word_registers : passAll [
    { word := 0x0887003B, x := [(2, 0x180000000), (3, 0x1)], newX := [(1, 0x7FFFFFFF)] },
    { word := 0x088600BB, x := [(2, 0x1), (3, 0x3F)], newX := [(1, 0xFFFFFFFF80000000)] },
    { word := 0x088702BB, x := [(2, 0x80000000), (3, 0x24)], newX := [(1, 0xFFFFFFFFF8000000)] }] = true := by
  decide +kernel

/-- spec/95_test_vectors.md 2.5: MU16, MU17, MU20, MU28. -/
theorem test_multiply : passAll [
    { word := 0x088604B3, x := [(2, 0x8000000000000000), (3, 0x8000000000000000)], newX := [(1, 0x4000000000000000)] },
    { word := 0x08860533, xlen := .rv32, x := [(2, 0x80000000), (3, 0x80000000)], newX := [(1, 0xC0000000)] },
    { word := 0x088605B3, x := [(2, 0x8000000000000000), (3, 0x8000000000000000)], newX := [(1, 0x4000000000000000)] },
    { word := 0x0886043B, x := [(2, 0xAAAAAAAA00000003), (3, 0x5555555500000005)], newX := [(1, 0xF)] }] = true := by
  decide +kernel

/-- spec/95_test_vectors.md 2.5: DV1, DV5, DV7, DV27, DW1, DW12. -/
theorem test_divide : passAll [
    { word := 0x08860633, xlen := .rv32, x := [(2, 0x7), (3, 0x2)], newX := [(1, 0x3)] },
    { word := 0x08860633, xlen := .rv32, x := [(2, 0xFFFFFFF9), (3, 0x2)], newX := [(1, 0xFFFFFFFD)] },
    { word := 0x08860733, xlen := .rv32, x := [(2, 0xFFFFFFF9), (3, 0x2)], newX := [(1, 0xFFFFFFFF)] },
    { word := 0x088007B3, xlen := .rv32, x := [(2, 0xFFFFFFF9)], newX := [(1, 0xFFFFFFF9)] },
    { word := 0x0886063B, x := [(2, 0xAAAAAAAAFFFFFFF9), (3, 0x5555555500000002)], newX := [(1, 0xFFFFFFFFFFFFFFFD)] },
    { word := 0x0886073B, x := [(2, 0x80000000), (3, 0xFFFFFFFF)], newX := [(1, 0x0)] }] = true := by
  decide +kernel

/-- spec/95_test_vectors.md 2.6: CT3, CT12, CT22, CT27. -/
theorem test_jumps : passAll [
    { word := 0xFFFFFE67, xlen := .rv32, newPc := some 0xFF8 },
    { word := 0x0000086F, x := [(1, 0xAAAA)], newX := [(1, 0x1004)], newPc := some 0x1020 },
    { word := 0x0940046B, x := [(5, 0x3000)], newX := [(1, 0x1004)], newPc := some 0x3001 },
    { word := 0x0000026B }] = true := by
  decide +kernel

/-- spec/95_test_vectors.md 2.6: BR8, BR9, BR12, BR25. -/
theorem test_branches : passAll [
    { word := 0x008680E3, x := [(2, 0xFFFFFFFFFFFFFFFF), (3, 0x1)], newPc := some 0x1040 },
    { word := 0x00868263, x := [(2, 0xFFFFFFFFFFFFFFFF), (3, 0x1)], newPc := some 0x1040 },
    { word := 0x008683E3, x := [(2, 0xFFFFFFFFFFFFFFFF), (3, 0x1)], newPc := some 0x1040 },
    { word := 0x00868263, xlen := .rv32, x := [(2, 0x80000000), (3, 0x7FFFFFFF)], newPc := some 0x1040 }] = true := by
  decide +kernel

/-- spec/95_test_vectors_fp.md: FA14, FA30, FA37, FM16, FM30, FQ9, FR9, FR12. -/
theorem test_fp_arithmetic : passAll [
    { word := 0x08861053, f := [(2, .s 0x3F800000), (3, .s 0x3F800000)], newF := [(1, .s 0x0)] },
    { word := 0x08861653, f := [(2, .s 0xFF7FFFFF), (3, .s 0x7F7FFFFF)], newF := [(1, .s 0xFF7FFFFF)],
      newFsr := some 0x5 },
    { word := 0x088610D3, f := [(2, .d 0x7FF0000000000000), (3, .d 0x7FF0000000000000)],
      newF := [(1, .d 0x7FFFFFFFFFFFFFFF)], newFsr := some 0x10 },
    { word := 0x08862053, f := [(2, .s 0x800001), (3, .s 0x3F7FFFFE)], newF := [(1, .s 0x800000)],
      newFsr := some 0x1 },
    { word := 0x08863053, f := [(2, .s 0xBF800000), (3, .s 0x7F800000)], newF := [(1, .s 0x80000000)] },
    { word := 0x08804053, f := [(2, .s 0x7F800001)], newF := [(1, .s 0x7FC00001)], newFsr := some 0x10 },
    { word := 0x08860E53, f := [(2, .s 0x3F800000), (3, .s 0x33800000)], fsr := 0x60, newF := [(1, .s 0x3F800001)],
      newFsr := some 0x61 },
    { word := 0x08860E53, f := [(2, .s 0x3F800000), (3, .s 0x33800000)], fsr := 0x8, newF := [(1, .s 0x3F800000)],
      newFsr := some 0x9 }] = true := by
  decide +kernel

/-- spec/95_test_vectors_fp.md: FF5, FF8, FF10, FF24. -/
theorem test_fp_fused : passAll [
    { word := 0x08844043, f := [(2, .s 0x3F800001), (4, .s 0xBF800002)], newF := [(1, .s 0x28800000)] },
    { word := 0x08864447, f := [(2, .s 0x3F800000), (3, .s 0x3F800000), (4, .s 0x3F800000)],
      newF := [(1, .s 0x80000000)] },
    { word := 0x0886404F, f := [(2, .s 0x0), (3, .s 0x3F800000), (4, .s 0x0)], newF := [(1, .s 0x80000000)] },
    { word := 0x088640CB, f := [(2, .d 0x4000000000000000), (3, .d 0x4008000000000000), (4, .d 0x3FF0000000000000)],
      newF := [(1, .d 0xC014000000000000)] }] = true := by
  decide +kernel

/-- spec/95_test_vectors_fp.md: FX9, FX19, FX22. -/
theorem test_fp_min_max : passAll [
    { word := 0x08878053, f := [(2, .s 0x7FC00000), (3, .s 0xFF800002)], newF := [(1, .s 0xFFC00002)],
      newFsr := some 0x10 },
    { word := 0x08879053, f := [(2, .s 0x7FC00000), (3, .s 0xFF800002)], newF := [(1, .s 0xFFC00002)],
      newFsr := some 0x10 },
    { word := 0x088790D3, f := [(2, .d 0x7FF0000000000001), (3, .d 0x3FF0000000000000)],
      newF := [(1, .d 0x7FF8000000000001)], newFsr := some 0x10 }] = true := by
  decide +kernel

/-- spec/95_test_vectors_fp.md: FN3, FN9. -/
theorem test_fp_nans : passAll [
    { word := 0x08860053, f := [(2, .s 0x7FC00001), (3, .s 0xFF800002)], newF := [(1, .s 0xFFC00002)],
      newFsr := some 0x10 },
    { word := 0x08864043, f := [(2, .s 0x3F800000), (3, .s 0x7FC00003), (4, .s 0xFF800004)],
      newF := [(1, .s 0xFFC00004)], newFsr := some 0x10 }] = true := by
  decide +kernel

/-- spec/95_test_vectors_fp.md: FC9, FC26, FC27, FC41, FC45. -/
theorem test_fp_to_integer : passAll [
    { word := 0x0880A653, f := [(2, .s 0xC0200000)], newX := [(1, 0xFFFFFFFFFFFFFFFE)], newFsr := some 0x1 },
    { word := 0x0880A2D3, f := [(2, .d 0xC1E0000000100000)], newX := [(1, 0xFFFFFFFF80000000)], newFsr := some 0x1 },
    { word := 0x0880B253, f := [(2, .s 0x4F000000)], newX := [(1, 0xFFFFFFFF80000000)] },
    { word := 0x088086D3, f := [(2, .d 0x3FB999999999999A)], newX := [(1, 0x1)], newFsr := some 0x1 },
    { word := 0x088092D3, f := [(2, .d 0x43EFFFFFFFFFFFFF)], newX := [(1, 0xFFFFFFFFFFFFF800)] }] = true := by
  decide +kernel

/-- spec/95_test_vectors_fp.md: FI14, FI17, FI22, FI25. -/
theorem test_integer_to_fp : passAll [
    { word := 0x0880E053, x := [(2, 0x7FFFFFFF)], newF := [(1, .s 0x4F000000)], newFsr := some 0x1 },
    { word := 0x0880E0D3, x := [(2, 0x80000000)], newF := [(1, .d 0xC1E0000000000000)] },
    { word := 0x0880D053, x := [(2, 0xFFFFFFFFFFFFFFFF)], newF := [(1, .s 0x5F800000)], newFsr := some 0x1 },
    { word := 0x0880C6D3, x := [(2, 0x20000000000001)], newF := [(1, .d 0x4340000000000001)], newFsr := some 0x1 }] = true := by
  decide +kernel

/-- spec/95_test_vectors_fp.md: FD6, FD22, FD28. -/
theorem test_fp_formats : passAll [
    { word := 0x088100D3, f := [(2, .s 0x7F800001)], newF := [(1, .d 0x7FF8000020000000)], newFsr := some 0x10 },
    { word := 0x08811053, f := [(2, .d 0x3690000000000000)], newF := [(1, .s 0x0)], newFsr := some 0x3 },
    { word := 0x08811053, f := [(2, .d 0x7FF0000000000001)], newF := [(1, .s 0x7FC00000)], newFsr := some 0x10 }] = true := by
  decide +kernel

/-- spec/95_test_vectors_fp.md: FS8, FS9, FS11. -/
theorem test_sign_injection : passAll [
    { word := 0x08846053, f := [(2, .s 0x7F800001)], newF := [(1, .s 0xFF800001)] },
    { word := 0x08847053, f := [(2, .s 0xFFC00000)], newF := [(1, .s 0x7FC00000)] },
    { word := 0x088650D3, f := [(2, .d 0x3FF8000000000000), (3, .d 0x8000000000000000)],
      newF := [(1, .d 0xBFF8000000000000)] }] = true := by
  decide +kernel

/-- spec/95_test_vectors_fp.md: FV1, FV4, FV6, FV8. -/
theorem test_fp_moves : passAll [
    { word := 0x0805C053, f := [(2, .s 0xC0490FDB)], newX := [(1, 0xFFFFFFFFC0490FDB)] },
    { word := 0x0805C0D3, f := [(2, .d 0xC00921FB54442D18)], newX := [(1, 0xC00921FB54442D18)] },
    { word := 0x0881E053, x := [(2, 0xDEADBEEF3F800000)], newF := [(1, .s 0x3F800000)] },
    { word := 0x0881E0D3, x := [(2, 0x7FF0000000000001)], newF := [(1, .d 0x7FF0000000000001)] }] = true := by
  decide +kernel

/-- spec/95_test_vectors_fp.md: FP10, FP17, FP24, FP33. -/
theorem test_fp_compares : passAll [
    { word := 0x08875053, f := [(2, .s 0x0), (3, .s 0x80000000)], newX := [(1, 0x1)] },
    { word := 0x08876053, f := [(2, .s 0x7FC00000), (3, .s 0x3F800000)], newX := [(1, 0x0)], newFsr := some 0x10 },
    { word := 0x08877053, f := [(2, .s 0x7FC00000), (3, .s 0x7FC00000)], newX := [(1, 0x0)], newFsr := some 0x10 },
    { word := 0x088770D3, f := [(2, .d 0xBFF0000000000000), (3, .d 0x3FF0000000000000)], newX := [(1, 0x1)] }] = true := by
  decide +kernel

/-- spec/95_test_vectors_fp.md: FR2, FR5, FR8. -/
theorem test_fsr : passAll [
    { word := 0x0801D053, xlen := .rv32, fsr := 0x45, newX := [(1, 0x45)] },
    { word := 0x0881F053, x := [(2, 0xFFFFFFFFFFFFFFFF)], newX := [(1, 0x0)], newFsr := some 0xFF },
    { word := 0x1081F053, x := [(2, 0x42)], fsr := 0x21, newX := [(2, 0x21)], newFsr := some 0x42 }] = true := by
  decide +kernel

/-- spec/95_test_vectors.md and 95_test_vectors_fp.md: LS27, LS29, AM26, AM29, SI9, IW16, FR13, FR16, FX24, SY8, SY10. -/
theorem test_traps : passAll [
    { word := 0x08800183, xlen := .rv32, x := [(2, 0x2000)], mem := imageA,
      trap := some (.illegalInstruction 0x08800183) },
    { word := 0x08800383, x := [(2, 0x2000)], mem := imageA, trap := some (.illegalInstruction 0x08800383) },
    { word := 0x394C012B, x := [(5, 0x2002), (6, 0x1), (7, 0x9)], mem := [(0x2000, 0x1)],
      trap := some (.misalignedAddress 0x2002) },
    { word := 0x394C01AB, xlen := .rv32, x := [(5, 0x2001), (6, 0x1), (7, 0x9)], mem := [(0x2007, 0x80)],
      trap := some (.illegalInstruction 0x394C01AB) },
    { word := 0x08808093, xlen := .rv32, x := [(2, 0x3)], trap := some (.illegalInstruction 0x08808093) },
    { word := 0x0880049B, xlen := .rv32, x := [(2, 0x1)], trap := some (.illegalInstruction 0x0880049B) },
    { word := 0x08860E53, f := [(2, .s 0x3F800000), (3, .s 0x40000000)], fsr := 0xA0,
      trap := some (.illegalInstruction 0x08860E53) },
    { word := 0x08860A53, f := [(2, .s 0x3F800000), (3, .s 0x40000000)],
      trap := some (.illegalInstruction 0x08860A53) },
    { word := 0x08878853, f := [(2, .s 0x3F800000), (3, .s 0x40000000)],
      trap := some (.illegalInstruction 0x08878853) },
    { word := 0x00000077, xlen := .rv32, x := [(1, 0x77)], trap := some (.syscall) },
    { word := 0x000000F7, xlen := .rv32, trap := some (.breakpoint) }] = true := by
  decide +kernel


/-- The three counters: RDINSTRET reads the count before itself (R435), an RV32 read wraps (D26), and on RV64 no tick takes a
clock past its last value (R433). -/
theorem test_counters :
    (match exec (.rdinstret 1) { State.reset with instret := 41 } with
    | .next t => decide (t.readX 1 = 41) && t.instret == 42 | _ => false) = true ∧
    (match exec (.rdcycle 1) { State.reset with cfg := { Config.default with xlen := .rv32 }, cycle := 2 ^ 32 + 5 } with
    | .next t => decide (t.readX 1 = 5) | _ => false) = true ∧
    advanceClock .rv64 (2 ^ 64 - 2) 9 = 2 ^ 64 - 1 ∧ advanceClock .rv32 (2 ^ 64 - 2) 9 = 2 ^ 64 + 7 ∧
    (match exec (.rdtime 1) { State.reset with time := 7 } with | .next t => decide (t.readX 1 = 7) | _ => false) = true := by
  decide +kernel

/-- The stale fetch view: a store leaves the old byte there, FENCE.I drops it, FENCE does not (R44, R421, R422). -/
theorem test_fetch_view :
    (match exec (.sb 0 1 8) (State.reset.writeX 1 0x55) with
    | .next t => decide (t.stale = [(8, 0)]) &&
        (match exec (.fence 0 0 0) t, exec (.fenceI 0 0 0) t with
        | .next u, .next v => decide (u.stale = [(8, 0)]) && decide (v.stale = []) && decide (v.mem = [(8, 0x55)])
        | _, _ => false)
    | _ => false) = true := by decide +kernel

/-- spec/95_test_vectors.md P1 without its fence: after the store of the new word over the old one the fetch gives the old word
or the new one, and no mixture of their bytes (R70, R422). -/
theorem test_stale_fetch :
    let s := (State.reset.placeWord 0x52801C13).memWrite 0 4 0x5000A813
    s.fetchWord = 0x52801C13 ∨ s.fetchWord = 0x5000A813 := by
  intro s
  rcases State.fetchByte_cases s with h | h <;> unfold State.fetchWord State.wordOf <;> simp only [h]
  · exact .inr (by decide +kernel)
  · exact .inl (by decide +kernel)

/-! ### A map that denies, for the tests of access faults -/

/-- Addresses 0x3000 and above permit nothing; those from 0x2000 permit reading only. -/
def guardedMap : MemMap where
  regions :=
    [{ base := 0, size := 0x2000, perm := Perm.all },
     { base := 0x2000, size := 0x1000, perm := { read := true, write := false, exec := false } }]
  elsewhere := { read := false, write := false, exec := false }

def guarded : State := { State.reset with cfg := { Config.default with memMap := guardedMap } }

/-- What an outcome traps with. -/
def trapOf (r : Result) : Option Exc :=
  match r with
  | .next t => if t.halted then t.traps.head?.map (·.exc) else none
  | _ => none

/-- spec/95_test_vectors.md LS55, LS56, AM30, AM31: the lowest denied address of an access that straddles the boundary, the
order of the AMO's checks, and no byte stored. -/
theorem test_access_faults :
    let s := guarded.writeX 2 0x3000
    trapOf (exec (.lw 1 2 (-2)) s) = some (.accessFault 0x3000 .load) ∧
    trapOf (exec (.sw 2 1 (-2)) s) = some (.accessFault 0x2FFE .store) ∧
    trapOf (exec (.amoaddW 1 2 3) s) = some (.accessFault 0x3000 .store) ∧
    trapOf (exec (.amoaddW 1 2 3) (guarded.writeX 2 0x3001)) = some (.misalignedAddress 0x3001) ∧
    trapOf (exec (.lw 1 2 (-4)) s) = none := by decide +kernel

/-- A fetch from a misaligned pc, and from an address that may not be executed (R471, R476). -/
theorem test_fetch_faults :
    trapOf (step { guarded with pc := 0x1002 }) = some .instructionAddressMisaligned ∧
    trapOf (step { guarded with pc := 0x2000 }) = some (.accessFault 0x2000 .fetch) ∧
    trapOf (step { guarded with pc := 0x2002 }) = some .instructionAddressMisaligned := by decide +kernel

/-- A resumption that writes registers, `fsr` and memory, some of them twice. -/
def busy : Resumption where
  pc := 0x104
  x := [(10, 3), (0, 9), (10, 4)]
  f := [(1, .s 5)]
  fsr := some 0xFFFFFFFF
  mem := [(8, 1), (8, 2)]
  retired := 1
  syncsFetch := false

/-- The state after reset under an environment that resumes a SYSCALL at address 0 and stops at every other trap. -/
def served : State := { State.reset with handler := { cases := [(⟨.syscall, 0⟩, .resume busy)], otherwise := .stop } }

/-- The environment resumes the thread: registers, `fsr`, memory and pc as it says (R480, R482), the same at a second trap
with the same record, and it stops at another one. -/
theorem test_resume :
    (match exec .syscall served with
    | .next t => decide (t.pc = 0x104) && decide (t.readX 10 = 4) && decide (t.readX 0 = 0) && decide (t.readF 1 = .s 5) &&
        decide (t.fsr = 0xFF) && decide (t.mem = [(8, 2)]) && decide (t.stale = [(8, 0)]) && t.instret == 1 && !t.halted &&
        decide (t.traps = [⟨.syscall, 0⟩]) &&
        (match exec .syscall { t with pc := 0 }, exec .syscall t with
        | .next u, .next v => decide (u.pc = 0x104) && decide (u.traps = [⟨.syscall, 0⟩, ⟨.syscall, 0⟩]) &&
            v.halted && decide (v.traps = [⟨.syscall, 0x104⟩, ⟨.syscall, 0⟩])
        | _, _ => false)
    | _ => false) = true := by decide +kernel

/-- A conversion of 2^31 to a signed word raises NV and delivers what the table of the configuration says (U2). -/
theorem test_invalid_conversion :
    (match exec (.fcvtWS 1 2 1) (State.reset.writeF 2 (.s 0x4F000000)) with
    | .next t => decide (t.fsr = 0x10) && decide (t.readX 1 = 0x7FFFFFFF) && decide (t.pc = 4) && !t.halted
    | _ => false) = true := by decide +kernel

/-- A read of an f register in the view it was not written in completes (U7). -/
theorem test_other_view_completes :
    (match exec (.mftxS 1 2) (State.reset.writeF 2 (.d 1)) with
    | .next t => decide (t.pc = 4) && !t.halted | _ => false) = true := by decide +kernel

/-! ### Witnesses: a state and operands that meet the hypotheses of each statement -/

/-- The outcome is a next state with a property that is decided. -/
def nextWith (r : Result) (p : State → Bool) : Bool :=
  match r with
  | .next t => p t
  | _ => false

theorem next_of_nextWith {r : Result} {p : State → Bool} (h : nextWith r p = true) : ∃ t, r = .next t ∧ p t = true := by
  cases r with
  | next t => exact ⟨t, rfl, h⟩
  | fault _ => cases h
  | refused _ => cases h

theorem witness_EncodeOfDecode : decode 0x08801413 = .ok (.addi 1 2 5) := by decide +kernel

/-- The all-zero word is no instruction's encoding, and a state fetches it. -/
theorem witness_UnassignedWordsIllegal :
    State.reset.halted = false ∧ State.reset.fetch = .ok 0 ∧ (∀ i, encode i ≠ 0) ∧
      (0 : IWord).extractLsb' 0 2 ≠ 0b11#2 ∧ (0x7F : IWord).extractLsb' 2 3 = 0b111#3 := by
  refine ⟨rfl, by decide +kernel, fun i h => ?_, by decide, by decide⟩
  have low : Laws.Encoding.Statement i := by
    cases i <;> exact Laws.Encoding.of_opcode _ _ rfl (by decide) (by decide)
  have bits := low.1
  rw [h] at bits
  exact absurd bits (by decide)

/-- The bytes of `addi x1, x2, 5` where the state fetches, on both byte orders. -/
theorem witness_StepRunsDecodedInstruction :
    ∀ e : Endian,
      let s := State.withFetchWord { State.reset with cfg := { Config.default with endian := e }, pc := 0x1000 } 32 0x08801413
      ∃ b0 b1 b2 b3 : Byte, s.halted = false ∧ (trunc s.cfg.xlen s.pc).toNat % 4 = 0 ∧ s.Permitted [.fetch] s.pc 4 ∧
        (∀ a ∈ s.span s.pc 4, ∀ c ∈ s.stale, c.1 ≠ a) ∧ (s.span s.pc 4).map (Memory.read s.mem) = [b0, b1, b2, b3] ∧
        decodeBytes s.cfg.endian [b0, b1, b2, b3] = .ok (.addi 1 2 5, []) := by
  intro e
  cases e
  · exact ⟨0x13, 0x14, 0x80, 0x08, rfl, by decide +kernel, (State.denied_eq_none ..).mp (by decide +kernel),
      by decide +kernel, by decide +kernel, by decide +kernel⟩
  · exact ⟨0x14, 0x13, 0x08, 0x80, rfl, by decide +kernel, (State.denied_eq_none ..).mp (by decide +kernel),
      by decide +kernel, by decide +kernel, by decide +kernel⟩

/-- With both clocks at their last value on RV64. -/
theorem witness_TimePassesWithEveryStep :
    let s : State := { State.reset with cycle := 2 ^ 64 - 1, time := 2 ^ 64 - 1 }
    ∃ t, stepInstr s = .next t ∧ s.halted = false ∧ t.cfg.xlen = .rv64 ∧ t.cycle < 2 ^ 64 ∧ t.time < 2 ^ 64 := by
  obtain ⟨t, h, p⟩ := next_of_nextWith (r := stepInstr { State.reset with cycle := 2 ^ 64 - 1, time := 2 ^ 64 - 1 })
    (p := fun t => decide (t.cfg.xlen = .rv64 ∧ t.cycle < 2 ^ 64 ∧ t.time < 2 ^ 64)) (by decide +kernel)
  exact ⟨t, h, rfl, of_decide_eq_true p⟩

theorem witness_MisalignedFetchTraps : State.reset.halted = false ∧
    (trunc State.reset.cfg.xlen 1).toNat % 4 ≠ 0 ∧ (trunc State.reset.cfg.xlen 2).toNat % 4 ≠ 0 ∧
    (trunc State.reset.cfg.xlen (-1)).toNat % 4 ≠ 0 ∧ (State.pc { State.reset with pc := -1 }) = -1 := by decide +kernel

theorem witness_DeniedFetchTraps :
    let s : State := { guarded with pc := 0x2000 }
    s.halted = false ∧ (trunc s.cfg.xlen s.pc).toNat % 4 = 0 ∧ 0x2000 ∈ s.span s.pc 4 ∧
      (MemMap.perm s.cfg.memMap 0x2000).exec = false ∧
      ∀ b ∈ s.span s.pc 4, (MemMap.perm s.cfg.memMap b).exec = false → 0x2000 ≤ b := by decide +kernel

/-- The default handler, and a listed record beside a record that is not. -/
theorem witness_StopAtTrap : State.reset.handler = TrapHandler.default ∧
    State.reset.outcome ⟨.breakpoint, State.reset.readPc⟩ = .stop ∧ served.outcome ⟨.breakpoint, served.readPc⟩ = .stop := by
  decide

theorem witness_ResumeFromTrap : served.outcome ⟨.syscall, served.readPc⟩ = .resume busy := by decide

theorem reset_inv : State.reset.Inv where
  xFits := by decide +kernel
  x0 := by decide
  pcFits := by decide
  fsrBits := by decide
  memWf := by decide
  memAddr := by decide
  staleRising := by decide
  staleAddr := by decide
  clocks := by decide

theorem witness_StepKeepsConfig : ∃ t, step State.reset = .next t :=
  (next_of_nextWith (p := fun _ => true) (by decide +kernel)).imp fun _ h => h.1

theorem witness_StepKeepsInvariant : State.reset.Inv ∧ ∃ t, step State.reset = .next t := ⟨reset_inv, witness_StepKeepsConfig⟩

/-- A step without a trap, and a step that traps and stops. -/
theorem witness_InstretCountsCompleted :
    let s := State.reset.withFetchWord 32 0x08801413
    (∃ t, step s = .next t ∧ s.TrapFree t) ∧ ∃ t, step State.reset = .next t ∧ t.halted = true := by
  refine ⟨?_, next_of_nextWith (p := fun t => t.halted) (by decide +kernel)⟩
  obtain ⟨t, h, p⟩ := next_of_nextWith (r := step (State.reset.withFetchWord 32 0x08801413))
    (p := fun t => decide (t.traps = [])) (by decide +kernel)
  exact ⟨t, h, (of_decide_eq_true p : t.traps = [])⟩

/-- A division by zero with a flag already set. -/
theorem witness_FlagsOnlyAccrue :
    let s : State := { State.reset with f := Vector.replicate 32 (.s 0x3F800000), fsr := 0x61 }
    (∀ rd rs1, Instr.fdivS 1 2 3 0 ≠ .mtfsr rd rs1) ∧ ∃ t, exec (.fdivS 1 2 3 0) s = .next t ∧ s.TrapFree t := by
  refine ⟨nofun, ?_⟩
  obtain ⟨t, h, p⟩ := next_of_nextWith
    (r := exec (.fdivS 1 2 3 0) { State.reset with f := Vector.replicate 32 (.s 0x3F800000), fsr := 0x61 })
    (p := fun t => decide (t.traps = [])) (by decide +kernel)
  exact ⟨t, h, (of_decide_eq_true p : t.traps = [])⟩

/-- A store and an AMO that change memory. -/
theorem witness_OnlyStoresChangeMemory :
    ∀ i ∈ [Instr.sb 0 1 8, .amoaddW 2 0 1], ∃ t, exec i (State.reset.writeX 1 1) = .next t ∧
      (State.reset.writeX 1 1).TrapFree t ∧ t.mem ≠ [] := by
  have all : ∀ i ∈ [Instr.sb 0 1 8, .amoaddW 2 0 1], nextWith (exec i (State.reset.writeX 1 1))
      (fun t => decide (t.traps = [] ∧ t.mem ≠ [])) = true := by decide +kernel
  intro i hi
  obtain ⟨t, h, p⟩ := next_of_nextWith (all i hi)
  exact ⟨t, h, (of_decide_eq_true p : t.traps = [] ∧ t.mem ≠ [])⟩

/-- The state after reset, as RV32. -/
def reset32 : State := { State.reset with cfg := { Config.default with xlen := .rv32 } }

theorem witness_IllFormedIllegal :
    (Instr.ld 1 2 0).wellFormed reset32.cfg.xlen = false ∧ (Instr.slli 1 2 32).wellFormed reset32.cfg.xlen = false ∧
      (Instr.faddS 1 2 3 6).wellFormed State.reset.cfg.xlen = false := by decide

/-- Both ends of the invalid modes. -/
theorem witness_InvalidDynamicModeIllegal :
    (Instr.fcvtDS 1 2 7).rmField = some 0b111#3 ∧ 5 ≤ (State.fsrRM { State.reset with fsr := 0xA0 }).toNat ∧
      5 ≤ (State.fsrRM { State.reset with fsr := 0xFF }).toNat := by decide

/-- A dynamic rounding mode of 100, and an aligned AMO. -/
theorem witness_LegalInstructionsComplete :
    (∀ a, MemMap.perm State.reset.cfg.memMap a = Perm.all) ∧
    ((Instr.faddS 1 2 3 7).wellFormed State.reset.cfg.xlen = true ∧
      (State.fsrRM { State.reset with fsr := 0x80 }).toNat < 5 ∧
      (encode (.faddS 1 2 3 7)).extractLsb' 0 7 ≠ 0b0101011#7) ∧
    ((Instr.amoaddD 1 2 3).wellFormed State.reset.cfg.xlen = true ∧ (Instr.amoaddD 1 2 3).rmField = none ∧
      (State.reset.writeX 2 24).ux ((encode (.amoaddD 1 2 3)).extractLsb' 22 5) % 2 ^ ((encode (.amoaddD 1 2 3)).extractLsb' 7 3).toNat = 0) :=
  ⟨fun _ => rfl, by decide +kernel, by decide +kernel⟩

/-- The largest amount of each variant. -/
theorem witness_ShiftResults :
    (31#6).toNat < reset32.cfg.xlen.bits ∧ (63#6).toNat < State.reset.cfg.xlen.bits := by decide

theorem witness_WordResults : State.reset.cfg.xlen = .rv64 := rfl

/-- Every clause of the two divisions: a zero divisor, overflow, and the general case at the lowest dividend. -/
theorem witness_SignedDivision :
    let s := (State.reset.writeX 1 0x8000000000000000).writeX 2 0xFFFFFFFFFFFFFFFF
    s.sx 0 = 0 ∧ (s.sx 1 = -(s.modulus / 2 : Nat) ∧ s.sx 2 = -1) ∧
      (s.sx 1 ≠ 0 ∧ ¬(s.sx 1 = -(s.modulus / 2 : Nat) ∧ s.sx 1 = -1)) := by decide +kernel

theorem witness_UnsignedDivision :
    State.reset.ux 1 = 0 ∧ (State.reset.writeX 2 1).ux 2 ≠ 0 ∧ (State.reset.writeX 2 (-1)).ux 2 ≠ 0 := by decide +kernel

theorem witness_WordDivision :
    let s := (State.reset.writeX 1 0x80000000).writeX 2 0xFFFFFFFF
    s.cfg.xlen = .rv64 ∧ s.ux 0 % 2 ^ 32 = 0 ∧ s.ux 1 % 2 ^ 32 = 2 ^ 31 ∧ s.ux 2 % 2 ^ 32 = 2 ^ 32 - 1 := by decide +kernel

/-- An access of each width, at an address that wraps at the top of the address space. -/
theorem witness_Permitted (kinds : List AccessKind) (n : Nat) :
    State.reset.Permitted kinds ((State.reset.writeX 1 (-1)).address 1 0) n := by
  intro b _ k _
  cases k <;> rfl

/-- `IntegerLoadResults`, `IntegerStoreResults`, `FpLoadResults`, `FpStoreResults`: the widths, and RV64. -/
theorem witness_LoadsAndStores :
    let s := State.reset.writeX 1 (-1)
    (∀ n ∈ [1, 2, 4, 8], s.denied [.load] (s.address 1 0) n = none ∧ s.denied [.store] (s.address 1 0) n = none) ∧
      s.cfg.xlen = .rv64 ∧ (s.writeF 2 (.s 1)).readF 2 = .s 1 ∧ (s.writeF 2 (.d 1)).readF 2 = .d 1 := by decide +kernel

/-- `b` is the lowest address of an access of `n` bytes at `a` that does not permit `p`. -/
def lowestDenied (s : State) (p : Perm → Bool) (a : XWord) (n b : Nat) : Bool :=
  decide (b ∈ s.span a n) && !p (MemMap.perm s.cfg.memMap b) &&
    (s.span a n).all fun c => p (MemMap.perm s.cfg.memMap c) || decide (b ≤ c)

/-- A load and a store of each width whose last byte is the first one denied; AMOs denied their store alone, and denied both. -/
theorem witness_DeniedAccessTraps :
    let s := ((guarded.writeX 1 0x3000).writeX 2 0x2000).writeX 3 0x2FF8
    (∀ p ∈ ([(1, 0), (2, -1), (4, -3), (8, -7)] : List (Nat × BitVec 12)),
      lowestDenied s (Perm.allows · .load) (s.address 1 p.2) p.1 0x3000 = true ∧
      lowestDenied s (Perm.allows · .store) (s.address 2 p.2) p.1 0x2000 = true) ∧
    (∀ n ∈ [4, 8], s.ux 1 % n = 0 ∧ lowestDenied s (fun p => p.read && p.write) (s.readX 1) n 0x3000 = true ∧
      s.ux 3 % n = 0 ∧ lowestDenied s (fun p => p.read && p.write) (s.readX 3) n 0x2FF8 = true) ∧
    s.cfg.xlen = .rv64 ∧ Instr.amomaxuW 0 1 3 ∈ [Instr.amoaddW 0 1 3, .amomaxuW 0 1 3] := by decide +kernel

/-- A store and a load that follow each other without a trap. -/
theorem storeThenLoad_of {store load : Instr} {s : State} (hs : s.traps = [])
    (h : nextWith (exec store s) (fun t => decide (t.traps = []) && decide (t.address 1 0 = s.address 1 0) &&
      decide (t.cfg = s.cfg) && nextWith (exec load t) fun u => decide (u.traps = [])) = true) :
    ∃ t u, exec store s = .next t ∧ exec load t = .next u ∧ s.TrapFree t ∧ t.TrapFree u ∧
      t.address 1 0 = s.address 1 0 ∧ t.cfg = s.cfg := by
  obtain ⟨t, ht, pt⟩ := next_of_nextWith h
  simp only [Bool.and_eq_true, decide_eq_true_eq] at pt
  obtain ⟨⟨⟨h1, h2⟩, h3⟩, h4⟩ := pt
  obtain ⟨u, hu, pu⟩ := next_of_nextWith h4
  exact ⟨t, u, ht, hu, h1.trans hs.symm, (of_decide_eq_true pu).trans h1.symm, h2, h3⟩

/-- For each width, from each register file to each, at an address whose accesses wrap at the top of the address space; the load
follows at once, so `v` is `t`. -/
theorem witness_StoreThenLoad :
    let s := ((State.reset.writeX 1 (-1)).writeX 2 (-2)).writeF 3 (.s 7)
    let sd := s.writeF 3 (.d 7)
    (∀ p ∈ [(Instr.sb 1 2 0, Instr.lb 3 1 0), (.sb 1 2 0, .lbu 3 1 0), (.sh 1 2 0, .lh 3 1 0), (.sh 1 2 0, .lhu 3 1 0),
        (.sw 1 2 0, .lw 3 1 0), (.sw 1 2 0, .lwu 3 1 0), (.sw 1 2 0, .flw 3 1 0), (.sd 1 2 0, .ld 3 1 0),
        (.sd 1 2 0, .fld 3 1 0), (.fsw 1 3 0, .flw 3 1 0), (.fsw 1 3 0, .lw 3 1 0), (.fsw 1 3 0, .lwu 3 1 0)],
      ∃ t u, exec p.1 s = .next t ∧ exec p.2 t = .next u ∧ s.TrapFree t ∧ t.TrapFree u ∧
        t.address 1 0 = s.address 1 0 ∧ t.cfg = s.cfg) ∧
    (∀ load ∈ [Instr.fld 3 1 0, .ld 3 1 0], ∃ t u, exec (.fsd 1 3 0) sd = .next t ∧ exec load t = .next u ∧
      sd.TrapFree t ∧ t.TrapFree u ∧ t.address 1 0 = sd.address 1 0 ∧ t.cfg = sd.cfg) ∧
    s.readF 3 = .s 7 ∧ sd.readF 3 = .d 7 := by
  refine ⟨?_, ?_, by decide +kernel, by decide +kernel⟩ <;> simp only [List.forall_mem_cons]
  · refine ⟨?_, ?_, ?_, ?_, ?_, ?_, ?_, ?_, ?_, ?_, ?_, ?_, by simp⟩ <;>
      exact storeThenLoad_of (by decide +kernel) (by decide +kernel)
  · refine ⟨?_, ?_, by simp⟩ <;> exact storeThenLoad_of (by decide +kernel) (by decide +kernel)

/-- Aligned addresses at the top of the address space. -/
theorem witness_AmoResults :
    let s := (State.reset.writeX 1 (-4)).writeX 2 (-8)
    s.ux 1 % 4 = 0 ∧ s.denied [.load, .store] (s.readX 1) 4 = none ∧ s.cfg.xlen = .rv64 ∧ s.ux 2 % 8 = 0 ∧
      s.denied [.load, .store] (s.readX 2) 8 = none := by decide +kernel

/-- Addresses just below the natural alignment, on the .D form 4-byte aligned. -/
theorem witness_MisalignedAmoTraps :
    let s := (State.reset.writeX 1 3).writeX 2 4
    (s.ux 1 % 4 ≠ 0 ∧ Instr.amomaxuW 1 1 3 ∈ [Instr.amoaddW 1 1 3, .amomaxuW 1 1 3]) ∧
      s.cfg.xlen = .rv64 ∧ s.ux 2 % 8 ≠ 0 := by decide +kernel

/-- A store beside the fetched word, at its first and at its last byte, and beside a single byte. -/
theorem witness_FetchView : State.reset.stale = [] ∧ 4 ∉ State.reset.span State.reset.pc 4 ∧
    0 ∈ State.reset.span State.reset.pc 4 ∧ 3 ∈ State.reset.span State.reset.pc 4 ∧ (∀ c ∈ [(8, (1 : Byte))], c.1 ≠ 9) ∧
    State.reset.cfg.endian = .little ∧
    (State.cfg { State.reset with cfg := { Config.default with endian := .big } }).endian = .big := by decide +kernel

theorem witness_SyscallAndBreakTrap :
    State.reset.outcome ⟨.syscall, State.reset.readPc⟩ = .stop ∧
      State.reset.outcome ⟨.breakpoint, State.reset.readPc⟩ = .stop := by decide

/-- A valid rounding mode, static and dynamic, for the statements that ask for one; and RV64. -/
theorem witness_effRM :
    State.reset.effRM 4 = some .rmm ∧ State.effRM { State.reset with fsr := 0x60 } 7 = some .rup ∧
      State.reset.cfg.xlen = .rv64 := by decide

/-- Operands for every clause of the NaN rule: signaling, quiet, and no NaN, in each position. -/
theorem witness_NaNPropagation :
    (isSignaling .single 0x7F800001 = true ∧ isSignaling .double 0x7FF0000000000001 = true) ∧
    (isSignaling .single 0x7FC00000 = false ∧ isNaN .single 0x7FC00000 = true) ∧
    (isSignaling .double 0x7FF8000000000000 = false ∧ isNaN .double 0x7FF8000000000000 = true) ∧
    (isSignaling .single 0x3F800000 = false ∧ isNaN .single 0x3F800000 = false) := by decide +kernel

/-- The value of a pattern that is finite. -/
theorem toRat_of {f : Fmt} {b : Pattern} {neg : Bool} {m : Nat} {e : Int} (h : unpack f b = .fin neg m e) :
    (unpack f b).toRat = some ((if neg then -1 else 1) * m * (2 : ℚ) ^ e) := by rw [h]; rfl

/-- `FpArithmeticCompletes`: numbers that are not zero with a sum, a difference and a square root that are not either (1 and 4),
numbers that cancel (1 and -1, the smallest subnormal and itself), and zeros of both signs. -/
theorem witness_FpArithmeticCompletes :
    (unpack .single 0x3F800000).toRat = some 1 ∧ (unpack .single 0x40800000).toRat = some 4 ∧
    (unpack .single 0xBF800000).toRat = some (-1) ∧ (unpack .double 1).toRat = some (2 ^ (-1074 : ℤ)) ∧
    (unpack .double 0).toRat = some 0 ∧ (unpack .double 0x8000000000000000).toRat = some 0 ∧
    signField .double 0x8000000000000000 = true := by
  refine ⟨(toRat_of (m := 0x800000) (e := -23) (neg := false) (by decide +kernel)).trans ?_,
    (toRat_of (m := 0x800000) (e := -21) (neg := false) (by decide +kernel)).trans ?_,
    (toRat_of (m := 0x800000) (e := -23) (neg := true) (by decide +kernel)).trans ?_,
    (toRat_of (m := 1) (e := -1074) (neg := false) (by decide +kernel)).trans ?_,
    (toRat_of (m := 0) (e := -1074) (neg := false) (by decide +kernel)).trans ?_,
    (toRat_of (m := 0) (e := -1074) (neg := true) (by decide +kernel)).trans ?_, by decide⟩ <;>
    norm_num [zpow_neg, zpow_ofNat]

/-- `FusedMultiplyAddCompletes`: 1 * 4 + 1 is not zero, 1 * 1 + (-1) cancels, and 0 * 1 + 0 is a sum of zeros. -/
theorem witness_FusedMultiplyAddCompletes :
    (if false then (-1 : ℚ) else 1) * (1 * 4) + (if false then -1 else 1) * 1 ≠ 0 ∧
    (if false then (-1 : ℚ) else 1) * (1 * 1) + (if false then -1 else 1) * (-1) = 0 ∧
    (if true then (-1 : ℚ) else 1) * (0 * 1) + (if true then -1 else 1) * 0 = 0 := by norm_num

/-- Infinities, zeros, numbers of either sign, in one format or the other. -/
theorem witness_InvalidOperations :
    unpack .single 0x7F800000 = .inf false ∧ unpack .single 0xFF800000 = .inf (!false) ∧
    unpack .single 0x80000000 = .fin true 0 (-149) ∧ unpack .single 0xBF800000 = .fin true 0x800000 (-23) ∧
    unpack .double 1 = .fin false 1 (-1074) ∧ unpack .double 0x7FF0000000000000 = .inf false ∧
    isNaN .single 0x7F800000 = false ∧ isNaN .single 0x80000000 = false ∧ isNaN .single 0xBF800000 = false ∧
    unpack .single 0xBF800000 ≠ .inf true := by decide +kernel

/-- The tie 5/2, the whole number 5, the irrational root of 2 and the root of 4. -/
theorem witness_RoundingDirections :
    Mag.Is { num := 5, den := 2, root := false } (5 / 2) ∧ Mag.Is { num := 5, den := 1, root := false } 5 ∧
    Mag.Is { num := 2, den := 1, root := true } (Real.sqrt 2) ∧ Mag.Is { num := 4, den := 1, root := true } 2 ∧
    Mag.cut { num := 5, den := 2, root := false } 0 = { whole := 2, half := true, rest := false } ∧
    (Mag.cut { num := 5, den := 1, root := false } 0).exact = true ∧
    (Mag.cut { num := 2, den := 1, root := true } (-1)).exact = false ∧
    (Mag.cut { num := 4, den := 1, root := true } 1).exact = true := by
  refine ⟨?_, ?_, ⟨Real.sqrt_nonneg 2, ?_⟩, ?_, ?_⟩
  · norm_num [Mag.Is]
  · norm_num [Mag.Is]
  · simp
  · norm_num [Mag.Is]
  · decide +kernel

/-- The smallest subnormal and the largest finite double. -/
theorem witness_RoundingKeepsRepresentable :
    (Fmt.double.IsPattern 1 ∧ unpack .double 1 = .fin false 1 (-1074)) ∧
    (Fmt.single.IsPattern 0xFF7FFFFF ∧ unpack .single 0xFF7FFFFF = .fin true 0xFFFFFF 104) :=
  ⟨⟨by show (1 : Nat) < 2 ^ 64; omega, by decide +kernel⟩, by show (0xFF7FFFFF : Nat) < 2 ^ 32; omega, by decide +kernel⟩

/-- The operands of the clauses of FMIN, FMAX and the comparisons: ordered, zeros of different signs, quiet and signaling NaNs. -/
theorem witness_MinimumAndMaximum :
    FVal.lt (unpack .single 0x80000000) (unpack .single 0x3F800000) = true ∧
    FVal.lt (unpack .double 0xFFF0000000000000) (unpack .double 1) = true ∧
    ((unpack .single 0).toRat = some 0 ∧ (unpack .single 0x80000000).toRat = some 0 ∧
      signField .single 0 ≠ signField .single 0x80000000) ∧
    (unpack .single 0x3F800000).extended ≠ none ∧ isNaN .single 0x7FC00000 = true ∧ isSignaling .single 0x7F800001 = true := by
  refine ⟨by decide +kernel, by decide +kernel, ⟨?_, ?_, by decide⟩, ?_, by decide +kernel, by decide +kernel⟩
  · exact (toRat_of (neg := false) (m := 0) (e := -149) (by decide +kernel)).trans (by norm_num)
  · exact (toRat_of (neg := true) (m := 0) (e := -149) (by decide +kernel)).trans (by norm_num)
  · rw [show unpack .single 0x3F800000 = .fin false 0x800000 (-23) by decide +kernel]
    simp [FVal.extended]

/-- `FloatToIntegerCompletes`: a NaN, an infinity, a value in range (1), and the first ones above and below the signed words
(2^31, and -2^31 - 1, which only a double is). -/
theorem witness_FloatToIntegerCompletes :
    isNaN .single 0x7FC00000 = true ∧ unpack .single 0xFF800000 = .inf true ∧
    (unpack .single 0x3F800000).toRat = some 1 ∧ (unpack .single 0x4F000000).toRat = some (2 ^ 31) ∧
    (unpack .double 0xC1E0000000200000).toRat = some (-2 ^ 31 - 1) ∧
    ∀ n : ℤ, RoundsToInt .rtz ((2 ^ 31 : ℤ) : ℝ) n ↔ n = 2 ^ 31 := by
  refine ⟨by decide +kernel, by decide +kernel,
    (toRat_of (neg := false) (m := 0x800000) (e := -23) (by decide +kernel)).trans (by norm_num [zpow_neg, zpow_ofNat]),
    (toRat_of (neg := false) (m := 0x800000) (e := 8) (by decide +kernel)).trans (by norm_num [zpow_ofNat]),
    (toRat_of (neg := true) (m := 0x10000000200000) (e := -21) (by decide +kernel)).trans
      (by norm_num [zpow_neg, zpow_ofNat]), fun n => ?_⟩
  simp only [RoundsToInt]
  constructor
  · rintro ⟨-, h⟩
    rw [← Int.cast_sub, ← Int.cast_abs, ← Int.cast_one, Int.cast_lt, abs_lt] at h
    omega
  · rintro rfl
    simp

/-- The ends of the 24 and 53 bits, a long integer with few significant bits, and the ends of the source registers. -/
theorem witness_ShortIntegersConvertExactly :
    (2 ^ 53 : Int).natAbs ≤ 2 ^ 53 ∧ (-2 ^ 24 : Int).natAbs ≤ 2 ^ 24 ∧ ((3 : Int) * 2 ^ 60 < 2 ^ 64 ∧ (3 : Int).natAbs ≤ 2 ^ 24) ∧
    -2 ^ 63 ≤ (-1 : Int) * 2 ^ 63 ∧ ((2 ^ 53 - 1 : Int) * 2 ^ 11 < 2 ^ 64 ∧ (2 ^ 53 - 1 : Int).natAbs ≤ 2 ^ 53) := by decide

/-- In each format a NaN, an infinity, a zero and a number; they serve `WideningKeepsValue` too. -/
theorem witness_FormatConversionsComplete :
    isNaN .double ((State.reset.writeF 2 (.d 0x7FF8000000000000)).patD 1 2) = true ∧
    isNaN .single ((State.reset.writeF 2 (.s 0x7F800001)).patS 1 2) = true ∧
    unpack .double ((State.reset.writeF 2 (.d 0xFFF0000000000000)).patD 1 2) = .inf true ∧
    unpack .single ((State.reset.writeF 2 (.s 0x7F800000)).patS 1 2) = .inf false ∧
    (unpack .double 1).toRat = some (2 ^ (-1074 : ℤ)) ∧ (unpack .double 0x8000000000000000).toRat = some 0 ∧
    (unpack .single 0x3F800000).toRat = some 1 ∧ (unpack .single 0x80000000).toRat = some 0 := by
  refine ⟨by decide +kernel, by decide +kernel, by decide +kernel, by decide +kernel,
    witness_FpArithmeticCompletes.2.2.2.1, witness_FpArithmeticCompletes.2.2.2.2.2.1, witness_FpArithmeticCompletes.1,
    witness_MinimumAndMaximum.2.2.1.2.1⟩

end Sys2Proof.Tests
end

section
/-! PROOFS. What an instruction can do to the state, said once for all 150 of them; and the two statements about the scope of
the machine: a step runs the decoded instruction, and no step changes a parameter of the run (spec/00_scope.md). -/

namespace Sys2Proof

/-- The stores of both register files (R120). -/
def Instr.isStore : Instr → Bool
  | .sb .. | .sh .. | .sw .. | .sd .. | .fsw .. | .fsd .. => true
  | _ => false

/-- The atomic memory operations (R150). -/
def Instr.isAmo : Instr → Bool
  | .amoaddW .. | .amoswapW .. | .amoandW .. | .amoorW .. | .amominW .. | .amomaxW .. | .amominuW .. | .amomaxuW ..
  | .amoaddD .. | .amoswapD .. | .amoandD .. | .amoorD .. | .amominD .. | .amomaxD .. | .amominuD .. | .amomaxuD .. => true
  | _ => false

end Sys2Proof

namespace Sys2Proof.Machine

/-! ### What an instruction can do -/

/-- The next states an instruction can have: those of a trap, or one of the ten ways to complete.  Only a store or an AMO writes
memory, and only MTFSR writes `fsr` outside its flags; `exec_effect` ties it to the meanings. -/
inductive Effect (i : Instr) (s : State) : State → Prop
  | trap {e : Exc} {t : State} (h : raise e s = .next t) : Effect i s t
  | goTo (pc : XWord) : Effect i s (s.retireTo (trunc s.cfg.xlen pc))
  | link (rd : Reg) (v pc : XWord) : Effect i s ((s.writeX rd v).retireTo (trunc s.cfg.xlen pc))
  | writeX (rd : Reg) (v : XWord) : Effect i s (s.writeX rd v).retire
  | writeXFlags (rd : Reg) (v : XWord) (fl : FFlags) : Effect i s ((s.writeX rd v).accrue fl).retire
  | writeF (rd : Reg) (v : FReg) : Effect i s (s.writeF rd v).retire
  | writeFFlags (rd : Reg) (v : FReg) (fl : FFlags) : Effect i s ((s.writeF rd v).accrue fl).retire
  | swapFsr (hi : ∃ rd rs1, i = .mtfsr rd rs1) (rd : Reg) (v : XWord) (w : BitVec 32) :
      Effect i s ((s.writeFsr w).writeX rd v).retire
  | store (hi : i.isStore = true) (a : XWord) (n : Nat) (v : BitVec 64) : Effect i s (s.memWrite a n v).retire
  | amo (hi : i.isAmo = true) (rd : Reg) (a : XWord) (n : Nat) (v : BitVec 64) (old : XWord) :
      Effect i s ((s.memWrite a n v).writeX rd old).retire
  | syncFetch : Effect i s s.syncFetch.retire

namespace Effect

variable {i j : Instr} {s t : State}

/-! #### Results -/

theorem of_putX {rd : Reg} {v : XWord} (h : putX rd v s = .next t) : Effect i s t := by
  rw [putX_cases h]
  exact .writeX rd v

theorem of_putXFlags {rd : Reg} {v : XWord} {fl : FFlags} (h : putXFlags rd v fl s = .next t) : Effect i s t := by
  rw [putXFlags_cases h]
  exact .writeXFlags rd v fl

theorem of_putF {rd : Reg} {v : FReg} (h : putF rd v s = .next t) : Effect i s t := by
  rw [putF_cases h]
  exact .writeF rd v

theorem of_putFFlags {rd : Reg} {v : FReg} {fl : FFlags} (h : putFFlags rd v fl s = .next t) : Effect i s t := by
  rw [putFFlags_cases h]
  exact .writeFFlags rd v fl

theorem of_jumpLink {rd : Reg} {pc : XWord} (h : jumpLink rd (trunc s.cfg.xlen pc) s = .next t) : Effect i s t := by
  cases h
  exact .link rd s.pcPlus4 pc

theorem of_branch {taken : Bool} {imm12 : BitVec 12} (h : branch taken imm12 s = .next t) : Effect i s t := by
  cases h
  cases taken
  · exact .goTo (s.pc + 4)
  · exact .goTo (s.pc + branchOffset s.cfg.xlen imm12)

/-! #### Checks before the result -/

theorem of_rv64Only {k : Result} (h : rv64Only j s k = .next t) (hk : k = .next t → Effect i s t) : Effect i s t := by
  rcases rv64Only_cases h with ⟨-, ht⟩ | ⟨-, h⟩
  · exact .trap ht
  · exact hk h

theorem of_withRM {rm : BitVec 3} {k : RMode → Result} (h : withRM j rm s k = .next t)
    (hk : ∀ m, k m = .next t → Effect i s t) : Effect i s t := by
  rcases withRM_cases h with ⟨-, ht⟩ | ⟨m, -, h⟩
  · exact .trap ht
  · exact hk m h

theorem of_checkShamt {shamt : BitVec 6} {k : Result} (h : checkShamt j shamt s k = .next t)
    (hk : k = .next t → Effect i s t) : Effect i s t := by
  rcases checkShamt_cases h with ⟨-, -, ht⟩ | ⟨-, h⟩
  · exact .trap ht
  · exact hk h

/-! #### Memory accesses -/

theorem of_loadThen {a : XWord} {n : Nat} {k : BitVec 64 → Result} (h : loadThen a n s k = .next t)
    (hk : ∀ v, k v = .next t → Effect i s t) : Effect i s t := by
  rcases loadThen_cases h with ⟨b, -, ht⟩ | ⟨-, h⟩
  · exact .trap ht
  · exact hk _ h

theorem of_loadSigned {w : Nat} {rd rs1 : Reg} {imm12 : BitVec 12} (h : loadSigned w rd rs1 imm12 s = .next t) :
    Effect i s t :=
  of_loadThen h fun _ => of_putX

theorem of_loadUnsigned {w : Nat} {rd rs1 : Reg} {imm12 : BitVec 12} (h : loadUnsigned w rd rs1 imm12 s = .next t) :
    Effect i s t :=
  of_loadThen h fun _ => of_putX

theorem of_storeValue {n : Nat} {rs1 : Reg} {imm12 : BitVec 12} {v : BitVec 64} (hi : i.isStore = true)
    (h : storeValue n rs1 imm12 v s = .next t) : Effect i s t := by
  rcases storeDone_cases h with ⟨b, -, ht⟩ | ⟨-, rfl⟩
  · exact .trap ht
  · exact .store hi _ n v

theorem of_amo {rd rs1 : Reg} {n : Nat} {op : BitVec 64 → BitVec 64} {ext : BitVec 64 → XWord} (hi : i.isAmo = true)
    (h : Machine.amo rd rs1 n op ext s = .next t) : Effect i s t := by
  rcases amo_cases h with ⟨-, ht⟩ | ⟨b, -, ht⟩ | ⟨-, -, rfl⟩
  · exact .trap ht
  · exact .trap ht
  · exact .amo hi rd _ n _ _

theorem of_amoW {op : BitVec 32 → BitVec 32 → BitVec 32} {rd rs1 rs2 : Reg} (hi : i.isAmo = true)
    (h : amoW op rd rs1 rs2 s = .next t) : Effect i s t :=
  of_amo hi h

theorem of_amoD {op : BitVec 64 → BitVec 64 → BitVec 64} {rd rs1 rs2 : Reg} (hi : i.isAmo = true)
    (h : amoD j op rd rs1 rs2 s = .next t) : Effect i s t :=
  of_rv64Only h (of_amo hi)

end Effect

/-- What an instruction can do: the meanings of the 150 instructions, grouped by the shared operations they call. -/
theorem exec_effect {i : Instr} {s t : State} (h : exec i s = .next t) : Effect i s t := by
  cases i <;> unfold exec at h
  case j | fence => cases h; exact .goTo _
  case fenceI => cases h; exact .syncFetch
  case jal | jalrC | jalrR | jalrJ => exact .of_jumpLink h
  case beq | bne | blt | bge | bltu | bgeu => exact .of_branch h
  case syscall | brk => exact .trap h
  case mtfsr rd rs1 => rw [putX_cases h]; exact .swapFsr ⟨rd, rs1, rfl⟩ _ _ _
  case rdnpc | addi | slti | sltiu | xori | ori | andi | add | sub | sll | slt | sltu | xor | srl | sra | or | and
      | mul | mulh | mulhsu | mulhu | div | divu | rem | remu | lui | mftxS | mffsr | rdcycle | rdtime | rdinstret =>
    exact .of_putX h
  case slli | srli | srai => exact .of_checkShamt h .of_putX
  case addiw | slliw | srliw | sraiw | addw | subw | sllw | srlw | sraw | mulw | divw | divuw | remw | remuw | mftxD =>
    exact .of_rv64Only h .of_putX
  case lb | lh | lw => exact .of_loadSigned h
  case lbu | lhu => exact .of_loadUnsigned h
  case ld | lwu => exact .of_rv64Only h .of_loadUnsigned
  case flw | fld => exact .of_loadThen h fun _ => .of_putF
  case sb | sh | sw | fsw | fsd => exact .of_storeValue rfl h
  case sd => exact .of_rv64Only h (.of_storeValue rfl)
  case amoaddW | amoswapW | amoandW | amoorW | amominW | amomaxW | amominuW | amomaxuW => exact .of_amoW rfl h
  case amoaddD | amoswapD | amoandD | amoorD | amominD | amomaxD | amominuD | amomaxuD => exact .of_amoD rfl h
  case faddS | fsubS | fmulS | fdivS | fsqrtS | fmaddS | fmsubS | fnmsubS | fnmaddS | fcvtSD | fcvtSW | fcvtSWU
      | faddD | fsubD | fmulD | fdivD | fsqrtD | fmaddD | fmsubD | fnmsubD | fnmaddD | fcvtDS | fcvtDW | fcvtDWU =>
    exact .of_withRM h fun _ => .of_putFFlags
  case fcvtSL | fcvtSLU | fcvtDL | fcvtDLU => exact .of_rv64Only h fun h => .of_withRM h fun _ => .of_putFFlags
  case fminS | fmaxS | fminD | fmaxD => exact .of_putFFlags h
  case fsgnjS | fsgnjnS | fsgnjxS | fsgnjD | fsgnjnD | fsgnjxD | mxtfS => exact .of_putF h
  case mxtfD => exact .of_rv64Only h .of_putF
  case fcvtWS | fcvtWUS | fcvtWD | fcvtWUD => exact .of_withRM h fun _ => .of_putXFlags
  case fcvtLS | fcvtLUS | fcvtLD | fcvtLUD => exact .of_rv64Only h fun h => .of_withRM h fun _ => .of_putXFlags
  case feqS | fltS | fleS | feqD | fltD | fleD => exact .of_putXFlags h

/-! ### What the instruction of a step is -/

/-- A thread that is not stopped runs its instruction, and time passes. -/
theorem step_of_not_halted {s : State} (h : s.halted = false) : step s = afterTick (stepInstr s) := by
  unfold step
  rw [h]
  rfl

/-- The instruction of a step with a next state traps, or is an instruction that was fetched and decoded. -/
theorem stepInstr_next {s t : State} (h : stepInstr s = .next t) :
    (∃ e, raise e s = .next t) ∨ ∃ w i, s.fetch = .ok w ∧ decode w = .ok i ∧ exec i s = .next t := by
  rcases stepInstr_cases s with ⟨e, -, hs⟩ | ⟨w, e, -, -, hs⟩ | ⟨w, i, hf, hd, hs⟩ <;> rw [hs] at h
  · exact .inl ⟨e, h⟩
  · exact .inl ⟨_, h⟩
  · exact .inr ⟨w, i, hf, hd, h⟩

/-- A fetched word that decodes gives the step its meaning. -/
theorem stepInstr_of_decode {s : State} {w : IWord} {i : Instr} (hf : s.fetch = .ok w) (hd : decode w = .ok i) :
    stepInstr s = exec i s := by
  simp only [stepInstr, hf, hd]

/-- An aligned fetch from executable bytes gives a word. -/
theorem State.fetch_of_permitted {s : State} (ha : unsigned s.cfg.xlen s.pc % 4 = 0) (hp : s.Permitted [.fetch] s.pc 4) :
    s.fetch = .ok s.fetchWord := by
  rcases s.fetch_cases with ⟨hna, -⟩ | ⟨-, b, hd, -⟩ | ⟨-, -, hf⟩
  · exact absurd ha hna
  · rw [(s.denied_eq_none _ _ _).mpr hp] at hd
    cases hd
  · exact hf

/-- With none of its bytes stored to since the last FENCE.I, the word fetched is the one memory holds. -/
theorem State.fetchWord_of_not_stale {s : State} (h : ∀ a ∈ s.span s.pc 4, ∀ c ∈ s.stale, c.1 ≠ a) :
    s.fetchWord = s.wordOf (Memory.read s.mem) s.pc :=
  s.wordOf_congr s.pc fun a ha => s.fetchByte_of_not_stale a (h a ha)

/-- The instruction word is the four bytes of its span, as two parcels (R55). -/
theorem State.wordOf_eq_assembleParcels {s : State} {read : Nat → Byte} {pc : XWord} {b0 b1 b2 b3 : Byte}
    (h : (s.span pc 4).map read = [b0, b1, b2, b3]) : s.wordOf read pc = assembleParcels s.cfg.endian b0 b1 b2 b3 := by
  obtain ⟨h0, h1, h2, h3⟩ : _ ∧ _ ∧ _ ∧ _ := by
    simpa only [State.span, List.range_succ_eq_map, List.range_zero, List.map_cons, List.map_nil, List.cons.injEq,
      and_true] using h
  simp only [State.wordOf]
  rw [← h0, ← h1, ← h2, ← h3]

/-- Four bytes decode as the word they hold. -/
theorem decode_of_decodeBytes {e : Endian} {b0 b1 b2 b3 : Byte} {i : Instr} {rest rest' : List Byte}
    (h : decodeBytes e (b0 :: b1 :: b2 :: b3 :: rest) = .ok (i, rest')) : decode (assembleParcels e b0 b1 b2 b3) = .ok i := by
  simp only [decodeBytes] at h
  cases hd : decode (assembleParcels e b0 b1 b2 b3) with
  | error err => simp only [hd, reduceCtorEq] at h
  | ok j =>
    simp only [hd, Except.ok.injEq, Prod.mk.injEq] at h
    rw [h.1]

/-! ### The parameters of the run -/

/-- A trap changes no parameter of the run, whatever the environment answers. -/
theorem raise_keeps_params {e : Exc} {s t : State} (h : raise e s = .next t) : t.cfg = s.cfg ∧ t.handler = s.handler := by
  rcases raise_cases h with ⟨-, rfl⟩ | ⟨r, -, rfl⟩
  · exact ⟨rfl, rfl⟩
  · exact ⟨State.resume_cfg _ r, State.resume_handler _ r⟩

/-- No instruction changes a parameter of the run, whether it traps or completes. -/
theorem Effect.keeps_params {i : Instr} {s t : State} (h : Effect i s t) : t.cfg = s.cfg ∧ t.handler = s.handler := by
  cases h with
  | trap h => exact raise_keeps_params h
  | goTo | writeF | writeFFlags | syncFetch => exact ⟨rfl, rfl⟩
  | link | writeX | writeXFlags | swapFsr | store | amo => constructor <;> simp

/-- The instruction of a step changes no parameter of the run. -/
theorem stepInstr_keeps_params {s t : State} (h : stepInstr s = .next t) : t.cfg = s.cfg ∧ t.handler = s.handler := by
  rcases stepInstr_next h with ⟨e, h⟩ | ⟨w, i, -, -, h⟩
  · exact raise_keeps_params h
  · exact (exec_effect h).keeps_params

/-! ### The statements -/

/-- Settles O13: the instruction of a step keeps the parameters, and the passing of time does. -/
theorem stepKeepsConfig : Obligations.StepKeepsConfig := by
  intro s t h
  obtain ⟨-, u, hu, rfl⟩ := step_cases h
  simpa using stepInstr_keeps_params hu

/-- Settles O5: the fetch reads the four bytes of memory, and their word is the one that decodes. -/
theorem stepRunsDecodedInstruction : Obligations.StepRunsDecodedInstruction := by
  intro s i b0 b1 b2 b3 hrun haligned hpermitted hfresh hbytes hdecode
  have hword : s.fetchWord = assembleParcels s.cfg.endian b0 b1 b2 b3 :=
    (State.fetchWord_of_not_stale hfresh).trans (State.wordOf_eq_assembleParcels hbytes)
  have hfetch : s.fetch = .ok (assembleParcels s.cfg.endian b0 b1 b2 b3) :=
    hword ▸ State.fetch_of_permitted haligned hpermitted
  rw [step_of_not_halted hrun, stepInstr_of_decode hfetch (decode_of_decodeBytes hdecode)]

end Sys2Proof.Machine
end

section
/-! PROOFS. The state (spec/10_state.md): the passing of time, the retired count, the invariant, what an instruction that
completes does to `fsr` and to memory, the fetch view, and the reads of the counters and of `fsr`. -/

namespace Sys2Proof.Machine

/-! ### Traps and completed instructions -/

/-- An instruction traps, or it completes: it hands no record over, counts as one retired instruction (R435), and does not stop
the thread. -/
theorem Effect.trap_or_completes {i : Instr} {s t : State} (h : Effect i s t) :
    (∃ e, raise e s = .next t) ∨ (t.traps = s.traps ∧ t.instret = s.instret + 1 ∧ t.halted = s.halted) := by
  cases h with
  | trap h => exact .inl ⟨_, h⟩
  | goTo | writeF | writeFFlags | syncFetch => exact .inr ⟨rfl, rfl, rfl⟩
  | link | writeX | writeXFlags | swapFsr | store | amo => exact .inr (by simp)

theorem stepInstr_trap_or_completes {s t : State} (h : stepInstr s = .next t) :
    (∃ e, raise e s = .next t) ∨ (t.traps = s.traps ∧ t.instret = s.instret + 1 ∧ t.halted = s.halted) := by
  rcases stepInstr_next h with ht | ⟨w, i, -, -, h⟩
  · exact .inl ht
  · exact (exec_effect h).trap_or_completes

/-- A trap that stops a running thread counts nothing (R481). -/
theorem raise_instret_of_halted {e : Exc} {s t : State} (h : raise e s = .next t) (hrun : s.halted = false)
    (hstop : t.halted = true) : t.instret = s.instret := by
  rcases raise_cases h with ⟨-, rfl⟩ | ⟨r, -, rfl⟩
  · rfl
  · simp [hrun] at hstop

/-! ### The flags and the rounding mode -/

/-- Raised flags are added to those of `fsr` (R294). -/
theorem State.fsrFlags_accrue (s : State) (fl : FFlags) : (s.accrue fl).fsrFlags = s.fsrFlags ||| fl.bits := by
  ext k hk
  have hmask : fsrMask.getLsbD k = true := by interval_cases k <;> rfl
  simp [State.fsrFlags, hmask, hk, show k < 32 by omega, ← BitVec.getLsbD_eq_getElem]

/-- Raised flags leave the rounding mode (R294). -/
theorem State.fsrRM_accrue (s : State) (fl : FFlags) : (s.accrue fl).fsrRM = s.fsrRM := by
  ext k hk
  have hmask : fsrMask.getLsbD (5 + k) = true := by interval_cases k <;> rfl
  simp [State.fsrRM, hmask]

/-- What an instruction other than MTFSR does to `fsr` where it completes: nothing, or it raises flags. -/
theorem Effect.fsr_accrues {i : Instr} {s t : State} (h : Effect i s t) (hi : ∀ rd rs1, i ≠ .mtfsr rd rs1)
    (hfree : s.TrapFree t) : t.fsr = s.fsr ∨ ∃ fl, t.fsr = (s.accrue fl).fsr := by
  cases h with
  | trap h => exact absurd hfree (raise_not_trapFree h)
  | swapFsr hm =>
    obtain ⟨rd, rs1, rfl⟩ := hm
    exact absurd rfl (hi rd rs1)
  | writeXFlags rd v fl | writeFFlags rd v fl => exact .inr ⟨fl, by simp⟩
  | goTo | link | writeX | writeF | store | amo | syncFetch => exact .inl (by simp)

/-! ### Memory -/

/-- An instruction that completes and is neither a store nor an AMO leaves memory (R120, R150). -/
theorem Effect.mem_eq {i : Instr} {s t : State} (h : Effect i s t) (hfree : s.TrapFree t) (hs : i.isStore = false)
    (ha : i.isAmo = false) : t.mem = s.mem := by
  cases h with
  | trap h => exact absurd hfree (raise_not_trapFree h)
  | store hi => rw [hi] at hs; cases hs
  | amo hi => rw [hi] at ha; cases ha
  | goTo | link | writeX | writeXFlags | writeF | writeFFlags | swapFsr | syncFetch => simp

/-- The stores are the six instructions of R130 to R133, R136 and R137. -/
theorem isStore_cases {i : Instr} (h : i.isStore = true) :
    ∃ rs1 rs2 imm, i = .sb rs1 rs2 imm ∨ i = .sh rs1 rs2 imm ∨ i = .sw rs1 rs2 imm ∨ i = .sd rs1 rs2 imm ∨
      i = .fsw rs1 rs2 imm ∨ i = .fsd rs1 rs2 imm := by
  cases i
  case sb rs1 rs2 imm | sh rs1 rs2 imm | sw rs1 rs2 imm | sd rs1 rs2 imm | fsw rs1 rs2 imm | fsd rs1 rs2 imm =>
    exact ⟨rs1, rs2, imm, by simp⟩
  all_goals cases h

theorem encR_opcode (rd rs1 rs2 : Reg) (funct10 : BitVec 10) (op : BitVec 7) :
    (encR rd rs1 rs2 funct10 op).extractLsb' 0 7 = op := by
  ext k hk
  simp only [encR, BitVec.getElem_extractLsb', Nat.zero_add, BitVec.getLsbD_append, hk, if_true, BitVec.getLsbD_eq_getElem]

/-- Every AMO is of the R format with the major opcode AMO (R93, R150). -/
theorem isAmo_opcode {i : Instr} (h : i.isAmo = true) : (encode i).extractLsb' 0 7 = 0b0101011#7 := by
  cases i
  case amoaddW | amoswapW | amoandW | amoorW | amominW | amomaxW | amominuW | amomaxuW
      | amoaddD | amoswapD | amoandD | amoorD | amominD | amomaxD | amominuD | amomaxuD => exact encR_opcode ..
  all_goals cases h

/-! ### The invariant -/

namespace State.Inv

variable {s : State}

theorem writeX (h : s.Inv) (rd : Reg) (v : XWord) : (s.writeX rd v).Inv := by
  unfold State.writeX
  split
  · exact h
  · rename_i h0
    have hrd : rd.toNat ≠ 0 := fun hn => h0 (BitVec.eq_of_toNat_eq hn)
    refine { h with xFits := fun r => ?_, x0 := ?_ }
    · by_cases hr : rd.toNat = r
      · simp [hr]
      · simpa [Vector.getElem_set_ne, hr] using h.xFits r
    · simpa [Vector.getElem_set_ne, hrd] using h.x0

theorem writeF (h : s.Inv) (rd : Reg) (v : FReg) : (s.writeF rd v).Inv := { h with }

theorem writeFsr (h : s.Inv) (v : BitVec 32) : (s.writeFsr v).Inv :=
  { h with fsrBits := by rw [State.writeFsr_fsr, BitVec.and_assoc, BitVec.and_self] }

theorem accrue (h : s.Inv) (fl : FFlags) : (s.accrue fl).Inv := h.writeFsr _

theorem retireTo (h : s.Inv) {pc : XWord} (hpc : fits s.cfg.xlen pc = true) : (s.retireTo pc).Inv :=
  { h with pcFits := hpc }

theorem retire (h : s.Inv) : s.retire.Inv := h.retireTo (fits_trunc _ _)

theorem syncFetch (h : s.Inv) : s.syncFetch.Inv := { h with staleRising := rfl, staleAddr := rfl }

/-- The passing of time keeps the clocks of RV64 below their end (R39, R40). -/
theorem tick (h : s.Inv) : s.tick.Inv :=
  { h with clocks := fun hx => (h.clocks hx).imp (advanceClock_lt _ hx) (advanceClock_lt _ hx) }

theorem storeByte (h : s.Inv) {a : Nat} (b : Byte) (ha : a < 2 ^ s.cfg.xlen.bits) : (s.storeByte a b).Inv := by
  have hmem := h.memAddr
  have hstale := h.staleAddr
  simp only [List.all_eq_true, decide_eq_true_eq] at hmem hstale
  refine { h with
    memWf := Memory.wf_write _ _ _ h.memWf
    memAddr := ?_
    staleRising := s.remember_rising a h.staleRising
    staleAddr := ?_ } <;> simp only [List.all_eq_true, decide_eq_true_eq] <;> intro c hc
  · rcases Memory.of_mem_write _ _ _ c hc with ⟨rfl, -⟩ | hc
    · exact ha
    · exact hmem c hc
  · change c ∈ s.remember a at hc
    unfold State.remember at hc
    split at hc
    · exact hstale c hc
    · rcases Memory.of_mem_insert _ _ _ c hc with rfl | hc
      · exact ha
      · exact hstale c hc

theorem storeBytes (h : s.Inv) (cells : List Host.Cell) (ha : ∀ c ∈ cells, c.1 < 2 ^ s.cfg.xlen.bits) :
    (s.storeBytes cells).Inv := by
  induction cells generalizing s with
  | nil => exact h
  | cons c cs ih =>
    exact ih (h.storeByte c.2 (ha c List.mem_cons_self)) fun d hd => ha d (List.mem_cons_of_mem c hd)

theorem memWrite (h : s.Inv) (a : XWord) (n : Nat) (v : BitVec 64) : (s.memWrite a n v).Inv := by
  refine h.storeBytes _ fun c hc => ?_
  obtain ⟨k, -, hk⟩ := List.mem_map.mp (List.of_mem_zip hc).1
  exact hk ▸ Nat.mod_lt _ (Nat.two_pow_pos _)

/-- Going on at any pc, with any retired count and the fetch view kept or synchronized. -/
theorem goOn (h : s.Inv) (pc : XWord) (n : Nat) (syncs : Bool) :
    State.Inv { s with pc := trunc s.cfg.xlen pc, instret := n, stale := if syncs then [] else s.stale } := by
  cases syncs
  · exact { h with pcFits := fits_trunc _ _ }
  · exact { h with pcFits := fits_trunc _ _, staleRising := rfl, staleAddr := rfl }

/-- A resuming environment can write nothing that breaks the invariant (R480, R482). -/
theorem resume (h : s.Inv) (r : Resumption) : (s.resume r).Inv := by
  have hx : (r.x.foldl (fun s p => s.writeX p.1 p.2) s).Inv :=
    List.foldlRecOn r.x _ h fun _ hs p _ => hs.writeX p.1 p.2
  have hf : (r.f.foldl (fun s p => s.writeF p.1 p.2) (r.x.foldl (fun s p => s.writeX p.1 p.2) s)).Inv :=
    List.foldlRecOn r.f _ hx fun _ hs p _ => hs.writeF p.1 p.2
  have stored : ∀ {u : State}, u.Inv → (u.storeBytes (r.mem.map fun c => (c.1 % 2 ^ u.cfg.xlen.bits, c.2))).Inv := by
    refine fun hu => hu.storeBytes _ fun c hc => ?_
    obtain ⟨d, -, rfl⟩ := List.mem_map.mp hc
    exact Nat.mod_lt _ (Nat.two_pow_pos _)
  unfold State.resume
  dsimp only
  cases r.fsr with
  | none => exact (stored hf).goOn ..
  | some v => exact (stored (hf.writeFsr v)).goOn ..

theorem raise {e : Exc} {t : State} (h : s.Inv) (hr : Machine.raise e s = .next t) : t.Inv := by
  have handed : State.Inv { s with traps := ⟨e, s.readPc⟩ :: s.traps } := { h with }
  rcases raise_cases hr with ⟨-, rfl⟩ | ⟨r, -, rfl⟩
  · exact { h with }
  · exact handed.resume r

/-- Every effect of an instruction keeps the invariant. -/
theorem effect {i : Instr} {t : State} (h : s.Inv) (he : Effect i s t) : t.Inv := by
  cases he with
  | trap hr => exact h.raise hr
  | goTo pc => exact h.retireTo (fits_trunc _ _)
  | link rd v pc => exact (h.writeX rd v).retireTo (by simp)
  | writeX rd v => exact (h.writeX rd v).retire
  | writeXFlags rd v fl => exact ((h.writeX rd v).accrue fl).retire
  | writeF rd v => exact (h.writeF rd v).retire
  | writeFFlags rd v fl => exact ((h.writeF rd v).accrue fl).retire
  | swapFsr _ rd v w => exact ((h.writeFsr w).writeX rd v).retire
  | store _ a n v => exact (h.memWrite a n v).retire
  | amo _ rd a n v old => exact ((h.memWrite a n v).writeX rd old).retire
  | syncFetch => exact h.syncFetch.retire

theorem stepInstr {t : State} (h : s.Inv) (hs : Machine.stepInstr s = .next t) : t.Inv := by
  rcases stepInstr_next hs with ⟨e, hr⟩ | ⟨w, i, -, -, hx⟩
  · exact h.raise hr
  · exact h.effect (exec_effect hx)

end State.Inv

/-! ### The fetch view -/

theorem Memory.find?_insert (m : Memory) (a a' : Nat) (b : Byte) :
    (Memory.insert m a b).find? (fun c => c.1 == a') = if a = a' then some (a, b) else m.find? (fun c => c.1 == a') := by
  induction m with
  | nil => by_cases h : a = a' <;> simp [Memory.insert, h]
  | cons d m ih =>
    obtain ⟨k, v⟩ := d
    unfold Memory.insert
    split
    · by_cases h : a = a' <;> simp [h]
    · split
      · rename_i hak
        by_cases h : a = a' <;> simp [h, ← hak]
      · rename_i hak
        by_cases h : k = a'
        · simp [h, show a ≠ a' from fun ha => hak (ha.trans h.symm)]
        · simpa [h] using ih

/-- The byte an address held at the last FENCE.I (R44), which is what a fetch of the old contents reads (`fetchByte_cases`). -/
def State.oldByte (s : State) (a : Nat) : Byte :=
  ((s.stale.find? fun c => c.1 == a).map (·.2)).getD (Memory.read s.mem a)

theorem State.oldByte_of_synced {s : State} (h : s.stale = []) (a : Nat) : s.oldByte a = Memory.read s.mem a := by
  simp [State.oldByte, h]

/-- A store leaves the old contents: the first store to an address since the last FENCE.I remembers them, and later ones do not
touch them. -/
theorem State.oldByte_storeByte (s : State) (a a' : Nat) (b : Byte) : (s.storeByte a b).oldByte a' = s.oldByte a' := by
  unfold State.oldByte
  rw [State.storeByte_stale, State.storeByte_mem, Memory.read_write]
  unfold State.remember
  split
  · rename_i hany
    split
    · rename_i haa
      obtain ⟨c, hc⟩ := Option.isSome_iff_exists.mp (List.find?_isSome.mpr (List.any_eq_true.mp (haa ▸ hany)))
      rw [hc]
      rfl
    · rfl
  · rename_i hnone
    rw [Memory.find?_insert]
    split
    · rename_i haa
      have hf : s.stale.find? (fun c => c.1 == a') = none := by
        rw [← haa, List.find?_eq_none]
        exact fun c hc hca => hnone (List.any_eq_true.mpr ⟨c, hc, hca⟩)
      rw [hf, haa]
      rfl
    · rfl

theorem State.oldByte_storeBytes (s : State) (cells : List Host.Cell) (a : Nat) :
    (s.storeBytes cells).oldByte a = s.oldByte a := by
  induction cells generalizing s with
  | nil => rfl
  | cons c cs ih => exact (ih _).trans (s.oldByte_storeByte ..)

/-- After stores on a synchronized fetch view, a fetch sees memory in all its bytes, or what memory held before them in all of
them. -/
theorem State.fetchByte_storeBytes_cases {s : State} (h : s.stale = []) (cells : List Host.Cell) :
    (∀ a, (s.storeBytes cells).fetchByte a = Memory.read (s.storeBytes cells).mem a) ∨
    ∀ a, (s.storeBytes cells).fetchByte a = Memory.read s.mem a :=
  (s.storeBytes cells).fetchByte_cases.imp_right fun hold a =>
    (hold a).trans ((s.oldByte_storeBytes cells a).trans (State.oldByte_of_synced h a))

/-- The instruction word is formed alike in states of one configuration. -/
theorem State.wordOf_cfg {s t : State} (h : t.cfg = s.cfg) (read : Nat → Byte) (pc : XWord) :
    t.wordOf read pc = s.wordOf read pc := by
  simp only [State.wordOf, h]

/-! ### Results in an x register -/

theorem kept_writeX_retire (s : State) (rd : Reg) (v : XWord) : Kept s (s.writeX rd v).retire := by
  constructor <;> simp

/-- What the x registers read after an instruction that wrote one of them, whatever other parts of the state it wrote before. -/
theorem newX_writeX_retire {s u : State} {rd : Reg} {v : XWord} (hcfg : u.cfg = s.cfg) (hx : u.x = s.x)
    (hv : trunc s.cfg.xlen v = v) : NewX rd v s (u.writeX rd v).retire := by
  have read : ∀ r, (u.writeX rd v).retire.readX r = if r = rd ∧ rd ≠ 0 then v else s.readX r := fun r => by
    rw [State.readX_congr (State.retire_cfg _) (State.retire_x _), State.readX_writeX, hcfg, hv, State.readX_congr hcfg hx]
  exact ⟨fun r hr => by simp [read, hr], fun h0 => (read rd).trans (if_pos ⟨rfl, h0⟩), State.readX_zero _⟩

theorem writesX_putX {s : State} {rd : Reg} {v : XWord} (hv : trunc s.cfg.xlen v = v) :
    WritesX rd v s (s.writeX rd v).retire where
  kept := kept_writeX_retire s rd v
  mem := by constructor <;> simp
  x := newX_writeX_retire rfl rfl hv
  f := by simp
  fsr := by simp

/-- An instruction whose one effect is `x[rd]` completes with that value (R180). -/
theorem completesX_of_putX {i : Instr} {rd : Reg} {v : XWord} {s : State} {P : XWord → Prop} (he : exec i s = putX rd v s)
    (hv : trunc s.cfg.xlen v = v) (hP : P v) : CompletesX i rd s P :=
  ⟨_, v, he, writesX_putX hv, by simp [State.pcPlus4], hP⟩

theorem counterValue_toNat (xl : Xlen) (n : Nat) : (counterValue xl n).toNat = n % 2 ^ xl.bits := by
  rw [counterValue, trunc_toNat, BitVec.toNat_ofNat]
  cases xl <;> simp only [Xlen.bits] <;> omega

theorem counterValue_completes {i : Instr} {rd : Reg} {s : State} {n : Nat}
    (he : exec i s = putX rd (counterValue s.cfg.xlen n) s) : CompletesX i rd s (fun v => v.toNat = n % s.modulus) :=
  completesX_of_putX he (trunc_trunc _ _) (counterValue_toNat _ n)

/-! ### `fsr` in an x register -/

theorem fsrMask_and_toNat (v : BitVec 32) : (v &&& fsrMask).toNat = v.toNat % 256 := by
  rw [BitVec.toNat_and]
  exact Nat.and_two_pow_sub_one_eq_mod v.toNat 8

/-- The word of MFFSR, field by field (R104, R392). -/
theorem encode_mffsr (rd : Reg) :
    encode (.mffsr rd) = rd ++ 0b00000#5 ++ 0b00000#5 ++ 0b11101#5 ++ 0b000#3 ++ 0b00#2 ++ 0b1010011#7 := by
  apply BitVec.eq_of_toNat_eq
  simp only [encode, encDest, BitVec.toNat_append, Nat.shiftLeft_or_distrib, ← Nat.shiftLeft_add, Nat.or_assoc]
  rfl

/-- The word of MTFSR, field by field (R104, R393). -/
theorem encode_mtfsr (rd rs1 : Reg) :
    encode (.mtfsr rd rs1) = rd ++ rs1 ++ 0b00000#5 ++ 0b11111#5 ++ 0b000#3 ++ 0b00#2 ++ 0b1010011#7 := by
  apply BitVec.eq_of_toNat_eq
  simp only [encode, encSrc1, BitVec.toNat_append, Nat.shiftLeft_or_distrib, ← Nat.shiftLeft_add, Nat.or_assoc]
  rfl

/-- `fsr`, zero-extended, is its low eight bits on either variant (R37, R38, R392). -/
theorem zext_readFsr_toNat (s : State) : (zext s.cfg.xlen s.readFsr).toNat = s.fsr.toNat % 256 := by
  have hbits : 2 ^ 32 ≤ 2 ^ s.cfg.xlen.bits := by cases s.cfg.xlen <;> decide
  have hlow : s.fsr.toNat % 256 < 256 := Nat.mod_lt _ (by decide)
  rw [zext, trunc_toNat, BitVec.toNat_setWidth, State.readFsr, fsrMask_and_toNat, Nat.mod_eq_of_lt (by omega),
    Nat.mod_eq_of_lt (by omega)]

/-! ### The statements -/

/-- Settles O6: the step is that of its instruction, ticked. -/
theorem timePassesWithEveryStep : Obligations.TimePassesWithEveryStep := by
  intro s t ht hrun
  refine ⟨t.tick, ?_, le_advanceClock _ _ _, le_advanceClock _ _ _, rfl, fun hx => ?_, rfl⟩
  · rw [step_of_not_halted hrun, ht]
    rfl
  · exact ⟨advanceClock_lt _ hx, advanceClock_lt _ hx⟩

/-- Settles O11: every effect of an instruction keeps the invariant, so does every trap, and so does the passing of time. -/
theorem stepKeepsInvariant : Obligations.StepKeepsInvariant := by
  intro s t h hstep
  obtain ⟨-, u, hu, rfl⟩ := step_cases hstep
  exact (h.stepInstr hu).tick

/-- Settles O14: a step is a trap, or an instruction that completes and counts. -/
theorem instretCountsCompleted : Obligations.InstretCountsCompleted := by
  intro s t hstep
  obtain ⟨hrun, u, hu, rfl⟩ := step_cases hstep
  rcases stepInstr_trap_or_completes hu with ⟨e, hr⟩ | ⟨-, hcount, hhalted⟩
  · exact ⟨fun hfree => absurd hfree (raise_not_trapFree (t := u) hr), raise_instret_of_halted (t := u) hr hrun⟩
  · exact ⟨fun _ => hcount, fun hstop => absurd (hstop.symm.trans (hhalted.trans hrun)) nofun⟩

/-- Settles O15: what completes without being MTFSR leaves `fsr`, or raises flags in it. -/
theorem flagsOnlyAccrue : Obligations.FlagsOnlyAccrue := by
  intro i s t hi hexec hfree
  rcases (exec_effect hexec).fsr_accrues hi hfree with heq | ⟨fl, heq⟩
  · simp [State.fsrFlags, State.fsrRM, heq]
  · have hflags : t.fsrFlags = (s.accrue fl).fsrFlags := congrArg (BitVec.extractLsb' 0 5) heq
    have hrm : t.fsrRM = (s.accrue fl).fsrRM := congrArg (BitVec.extractLsb' 5 3) heq
    rw [hflags, hrm, State.fsrFlags_accrue, State.fsrRM_accrue]
    refine ⟨?_, rfl⟩
    ext k hk
    cases hold : s.fsrFlags[k] <;> simp [hold]

/-- Settles O16: of the instructions that complete, only the stores and the AMOs write memory. -/
theorem onlyStoresChangeMemory : Obligations.OnlyStoresChangeMemory := by
  intro i s t hexec hfree hchanged
  cases hs : i.isStore
  · cases ha : i.isAmo
    · exact absurd ((exec_effect hexec).mem_eq hfree hs ha) hchanged
    · exact .inr (isAmo_opcode ha)
  · exact .inl (isStore_cases hs)

/-- Settles O41: the stores leave the old contents of the fetch view, and a fetch reads all its bytes there or all in memory. -/
theorem fetchSeesOldOrNew : Obligations.FetchSeesOldOrNew := by
  intro s cells hsync t
  have hspan : t.span t.pc 4 = s.span s.pc 4 := by simp [t, State.span]
  have hword (read : Nat → Byte) : t.wordOf read t.pc = s.wordOf read s.pc := by
    rw [State.wordOf_cfg (State.storeBytes_cfg s cells), State.storeBytes_pc]
  have hview := State.fetchByte_storeBytes_cases hsync cells
  have hbyte (a : Nat) (hout : ∀ c ∈ cells, c.1 ≠ a) : t.fetchByte a = Memory.read s.mem a :=
    hview.elim (fun h => (h a).trans (s.read_storeBytes_of_not_mem cells a hout)) fun h => h a
  refine ⟨?_, fun hout => ?_, fun a => ⟨hview.imp (· a) (· a), hbyte a⟩⟩
  · refine hview.imp (fun h => ?_) fun h => ?_
    · exact t.wordOf_congr t.pc fun a _ => h a
    · exact (t.wordOf_congr t.pc fun a _ => h a).trans (hword _)
  · refine (t.wordOf_congr t.pc fun a ha => hbyte a fun c hc hca => ?_).trans (hword _)
    exact hout c hc (hca ▸ hspan ▸ ha)

/-- Settles O44: each counter read is a write of the count to `x[rd]`. -/
theorem counterReads : Obligations.CounterReads := fun _ _ =>
  ⟨counterValue_completes rfl, counterValue_completes rfl, counterValue_completes rfl⟩

/-- Settles O45: both instructions write `fsr` to `x[rd]`, and MTFSR writes the low bits of `x[rs1]` to `fsr` before. -/
theorem fsrAccess : Obligations.FsrAccess := by
  intro rd rs1 s
  have hold : trunc s.cfg.xlen (zext s.cfg.xlen s.readFsr) = zext s.cfg.xlen s.readFsr := trunc_trunc _ _
  refine ⟨encode_mffsr rd, encode_mtfsr rd rs1, completesX_of_putX rfl hold (zext_readFsr_toNat s), ?_⟩
  refine ⟨((s.writeFsr (s.readW rs1)).writeX rd (zext s.cfg.xlen s.readFsr)).retire, _, rfl, ?_, ?_,
    newX_writeX_retire rfl rfl hold, ?_, ?_, zext_readFsr_toNat s, ?_⟩
  · constructor <;> simp
  · constructor <;> simp
  · simp
  · simp [State.pcPlus4]
  · rw [State.retire_fsr, State.writeX_fsr, State.writeFsr_fsr, fsrMask_and_toNat]
    simp [State.readW, State.ux]

end Sys2Proof.Machine
end

section
/-! PROOFS. Rounding (spec/45_fp_arithmetic.md R295): a cut as a real number, its rounding in each direction, and `roundTo` as the
rounding of a real number to a format. -/

namespace Sys2Proof.Machine

/-! ### Signs -/

/-- The number with the sign of a magnitude's sign bit. -/
def signedBy {α : Type} [Neg α] (neg : Bool) (x : α) : α := if neg then -x else x

@[simp] theorem signedBy_false {α : Type} [Neg α] (x : α) : signedBy false x = x := rfl

@[simp] theorem signedBy_true {α : Type} [Neg α] (x : α) : signedBy true x = -x := rfl

theorem abs_signedBy (neg : Bool) {x : ℝ} (h : 0 ≤ x) : |signedBy neg x| = x := by
  cases neg <;> simp [abs_of_nonneg h]

theorem signedBy_div (neg : Bool) (x d : ℝ) : signedBy neg x / d = signedBy neg (x / d) := by
  cases neg <;> simp [neg_div]

theorem signedBy_mul (neg : Bool) (x d : ℝ) : signedBy neg x * d = signedBy neg (x * d) := by
  cases neg <;> simp

theorem signedBy_cast (neg : Bool) (n : ℤ) : ((signedBy neg n : ℤ) : ℝ) = signedBy neg (n : ℝ) := by
  cases neg <;> simp

theorem signedBy_inj (neg : Bool) {x y : ℝ} : signedBy neg x = signedBy neg y ↔ x = y := by
  cases neg <;> simp

theorem signedBy_neg_iff (neg : Bool) {x : ℝ} (h : 0 < x) : neg = true ↔ signedBy neg x < 0 := by
  cases neg <;> simp [h, h.le]

theorem signedBy_eq_mul (neg : Bool) (x : ℝ) : (if neg then -1 else 1) * x = signedBy neg x := by
  cases neg <;> simp

/-! ### A cut as a real number -/

/-- The cut of the number `y` at the grid of the integers. -/
structure Cut.Is (c : Cut) (y : ℝ) : Prop where
  le   : c.whole + (if c.half then 1 / 2 else 0) ≤ y
  lt   : y < c.whole + (if c.half then 1 / 2 else 0) + 1 / 2
  rest : c.rest = false ↔ y = c.whole + (if c.half then 1 / 2 else 0)

theorem Mag.cut_is {v : Mag} {x : ℝ} (h : v.Is x) (hd : 0 < v.den) (q : ℤ) : (v.cut q).Is (x / 2 ^ q) := by
  obtain ⟨k, hwhole, hhalf, hlo, hhi, hrest⟩ := Mag.cut_spec h hd q
  have steps : ((v.cut q).whole : ℝ) + (if (v.cut q).half then 1 / 2 else 0) = k / 2 := by
    rw [hwhole, hhalf]
    have hk : (k : ℝ) = 2 * (k / 2 : Nat) + (k % 2 : Nat) := by exact_mod_cast (Nat.div_add_mod k 2).symm
    rcases Nat.mod_two_eq_zero_or_one k with h0 | h0
    · rw [hk, h0]
      simp
    · rw [hk, h0]
      simp
      ring
  refine ⟨?_, ?_, hrest.trans ?_⟩ <;> rw [steps]
  · linarith
  · linarith
  · constructor <;> intro hy <;> linarith

namespace Cut.Is

variable {c : Cut} {y : ℝ}

theorem whole_le (h : c.Is y) : (c.whole : ℝ) ≤ y := by
  have := h.le
  split at this <;> linarith

theorem lt_whole_add_one (h : c.Is y) : y < c.whole + 1 := by
  have := h.lt
  split at this <;> linarith

theorem nonneg (h : c.Is y) : 0 ≤ y := (Nat.cast_nonneg c.whole).trans h.whole_le

/-- The cut is exact just where the number is whole. -/
theorem exact_iff (h : c.Is y) : c.exact = true ↔ y = c.whole := by
  cases hh : c.half
  · simpa [Cut.exact, hh] using h.rest
  · have := h.le
    simp only [hh, if_true] at this
    simp only [Cut.exact, hh, Bool.not_true, Bool.false_and, Bool.false_eq_true, false_iff]
    intro hy
    linarith

theorem half_iff (h : c.Is y) : c.half = true ↔ c.whole + 1 / 2 ≤ y := by
  have hlo := h.le
  have hhi := h.lt
  cases hh : c.half <;> simp only [hh, Bool.false_eq_true, if_true, if_false, true_iff, false_iff, not_le] at * <;> linarith

/-- Where the half step is in the number, no more is just at a tie. -/
theorem rest_iff (h : c.Is y) (hh : c.half = true) : c.rest = false ↔ y = c.whole + 1 / 2 := by
  simpa [hh] using h.rest

end Cut.Is

/-! ### Rounding in each direction -/

/-- The direction that rounds a magnitude as `m` rounds its negation. -/
def RMode.mirror : RMode → RMode
  | .rdn => .rup
  | .rup => .rdn
  | m => m

theorem Cut.round_signedBy (c : Cut) (m : RMode) (neg : Bool) :
    c.round m neg = c.round (if neg then m.mirror else m) false := by
  cases neg
  · rfl
  · cases m <;> simp [Cut.round, RMode.mirror]

theorem roundsToInt_signedBy (m : RMode) (neg : Bool) (y : ℝ) (k : ℤ) :
    RoundsToInt m (signedBy neg y) (signedBy neg k) ↔ RoundsToInt (if neg then m.mirror else m) y k := by
  cases neg
  · rfl
  · have hdist : |-y - -(k : ℝ)| = |y - k| := by rw [neg_sub_neg, abs_sub_comm]
    cases m <;> simp only [RoundsToInt, RMode.mirror, signedBy_true, if_true, Int.cast_neg, hdist, abs_neg, Int.neg_emod_two]
    · constructor <;> rintro ⟨h1, h2⟩ <;> constructor <;> linarith
    · constructor <;> rintro ⟨h1, h2⟩ <;> constructor <;> linarith

/-- Whether rounding goes to the next whole step. -/
def Cut.roundsUp (c : Cut) (m : RMode) (neg : Bool) : Bool :=
  match m with
  | .rne => c.half && (c.rest || c.whole % 2 == 1)
  | .rmm => c.half
  | .rtz => false
  | .rdn => neg && !c.exact
  | .rup => !neg && !c.exact

theorem Cut.round_eq (c : Cut) (m : RMode) (neg : Bool) :
    c.round m neg = if c.roundsUp m neg then c.whole + 1 else c.whole := rfl

/-- An exact cut is not rounded up. -/
theorem Cut.roundsUp_of_exact {c : Cut} (h : c.exact = true) (m : RMode) (neg : Bool) : c.roundsUp m neg = false := by
  have hh : c.half = false := by
    unfold Cut.exact at h
    cases hc : c.half <;> simp_all
  cases m <;> simp [Cut.roundsUp, h, hh]

namespace Cut.Is

variable {c : Cut} {y : ℝ}

/-- The distance of a number from the whole step below it and from the one above. -/
theorem abs_sub_whole (h : c.Is y) : |y - c.whole| = y - c.whole := abs_of_nonneg (sub_nonneg.mpr h.whole_le)

theorem abs_sub_whole_add_one (h : c.Is y) : |y - (c.whole + 1)| = c.whole + 1 - y := by
  rw [abs_sub_comm]
  exact abs_of_pos (sub_pos.mpr h.lt_whole_add_one)

/-- To nearest, ties to even: up past the half step, and at a tie from an odd number of steps. -/
theorem roundsToInt_rne (h : c.Is y) : RoundsToInt .rne y (c.round .rne false) := by
  rw [Cut.round_eq]
  unfold RoundsToInt
  dsimp only
  cases hh : c.half
  · have hlow : y < c.whole + 1 / 2 := lt_of_not_ge fun hge => by simp [h.half_iff.mpr hge] at hh
    simp only [Cut.roundsUp, hh, Bool.false_and, Bool.false_eq_true, if_false, Int.cast_natCast, h.abs_sub_whole]
    exact ⟨by linarith, fun htie => by linarith⟩
  · have hhigh := h.half_iff.mp hh
    cases hr : c.rest
    · have htie := (h.rest_iff hh).mp hr
      cases hodd : c.whole % 2 == 1
      · rw [beq_eq_false_iff_ne] at hodd
        simp only [Cut.roundsUp, hh, hr, beq_eq_false_iff_ne.mpr hodd, Bool.or_false, Bool.and_false, Bool.false_eq_true,
          if_false, Int.cast_natCast, h.abs_sub_whole]
        exact ⟨by linarith, fun _ => by omega⟩
      · simp only [Cut.roundsUp, hh, hr, hodd, Bool.or_true, Bool.and_self, if_true]
        rw [beq_iff_eq] at hodd
        push_cast
        rw [h.abs_sub_whole_add_one]
        exact ⟨by linarith, fun _ => by omega⟩
    · have hne : y ≠ c.whole + 1 / 2 := fun hy => by simp [(h.rest_iff hh).mpr hy] at hr
      simp only [Cut.roundsUp, hh, hr, Bool.true_and, Bool.true_or, if_true]
      push_cast
      rw [h.abs_sub_whole_add_one]
      exact ⟨by linarith, fun htie => absurd (by linarith) hne⟩

/-- To nearest, ties to the larger magnitude: up from the half step. -/
theorem roundsToInt_rmm (h : c.Is y) : RoundsToInt .rmm y (c.round .rmm false) := by
  rw [Cut.round_eq]
  unfold RoundsToInt
  dsimp only
  cases hh : c.half
  · have hlow : y < c.whole + 1 / 2 := lt_of_not_ge fun hge => by simp [h.half_iff.mpr hge] at hh
    simp only [Cut.roundsUp, hh, Bool.false_eq_true, if_false, Int.cast_natCast, h.abs_sub_whole]
    exact ⟨by linarith, fun htie => by linarith⟩
  · have hhigh := h.half_iff.mp hh
    simp only [Cut.roundsUp, hh, if_true]
    push_cast
    rw [h.abs_sub_whole_add_one, abs_of_nonneg h.nonneg, abs_of_nonneg (by positivity)]
    exact ⟨by linarith, fun _ => h.lt_whole_add_one⟩

/-- Toward plus infinity: up but where the cut is exact. -/
theorem roundsToInt_rup (h : c.Is y) : RoundsToInt .rup y (c.round .rup false) := by
  rw [Cut.round_eq]
  unfold RoundsToInt
  dsimp only
  cases he : c.exact
  · have hne : (c.whole : ℝ) ≠ y := fun hy => by simp [h.exact_iff.mpr hy.symm] at he
    simp only [Cut.roundsUp, he, Bool.not_false, Bool.and_self, if_true]
    push_cast
    exact ⟨h.lt_whole_add_one.le, by linarith [lt_of_le_of_ne h.whole_le hne]⟩
  · simp [Cut.roundsUp, he, h.exact_iff.mp he]

/-- A cut number is rounded to a whole number of steps in each direction (R35, R295 b). -/
theorem roundsToInt (h : c.Is y) (m : RMode) : RoundsToInt m y (c.round m false) := by
  cases m with
  | rne => exact h.roundsToInt_rne
  | rtz =>
    refine ⟨?_, ?_⟩ <;> simp only [Cut.round_eq, Cut.roundsUp, Bool.false_eq_true, if_false, Int.cast_natCast]
    · rw [abs_of_nonneg h.nonneg, abs_of_nonneg (by positivity)]
      exact h.whole_le
    · rw [h.abs_sub_whole]
      linarith [h.lt_whole_add_one]
  | rdn => exact ⟨by exact_mod_cast h.whole_le, by exact_mod_cast h.lt_whole_add_one⟩
  | rup => exact h.roundsToInt_rup
  | rmm => exact h.roundsToInt_rmm

/-- The same with either sign. -/
theorem roundsToInt_signedBy (h : c.Is y) (m : RMode) (neg : Bool) :
    RoundsToInt m (signedBy neg y) (signedBy neg (c.round m neg : ℤ)) := by
  rw [Machine.roundsToInt_signedBy, Cut.round_signedBy]
  exact h.roundsToInt _

/-- Rounding changes nothing just where the cut is exact. -/
theorem round_eq_iff (h : c.Is y) (m : RMode) (neg : Bool) : (c.round m neg : ℝ) = y ↔ c.exact = true := by
  refine ⟨fun hy => h.exact_iff.mpr ?_, fun he => ?_⟩
  · rw [Cut.round_eq] at hy
    split at hy
    · push_cast at hy
      exact absurd hy h.lt_whole_add_one.ne'
    · exact hy.symm
  · rw [Cut.round_eq, Cut.roundsUp_of_exact he]
    exact (h.exact_iff.mp he).symm

/-- A number between two whole numbers is rounded to one between them. -/
theorem round_mem (h : c.Is y) (m : RMode) (neg : Bool) {lo hi : Nat} (hlo : (lo : ℝ) ≤ y) (hhi : y < hi) :
    lo ≤ c.round m neg ∧ c.round m neg ≤ hi := by
  have hl : lo < c.whole + 1 := by exact_mod_cast hlo.trans_lt h.lt_whole_add_one
  have hh : c.whole < hi := by exact_mod_cast h.whole_le.trans_lt hhi
  rw [Cut.round_eq]
  split <;> omega

end Cut.Is

/-! ### Finite patterns -/

/-- `2^k`, a bound of a number in the binade of `e`, is above it just where `k` is above `e`. -/
theorem binade_lt_iff {x : ℝ} {e : ℤ} (hlo : 2 ^ e ≤ x) (hhi : x < 2 ^ (e + 1)) (k : ℤ) : x < 2 ^ k ↔ e < k := by
  constructor
  · exact fun h => two_zpow_lt.mp (hlo.trans_lt h)
  · exact fun h => hhi.trans_le (two_zpow_le.mpr (by omega))

theorem Fmt.expMax_eq (f : Fmt) : f.expMax = 2 * f.bias + 1 := by cases f <;> rfl

theorem Fmt.bias_pos (f : Fmt) : 0 < f.bias := by cases f <;> decide

/-- The pattern of a normal number: the significand `n` with its exponent (R291). -/
theorem represents_normal {f : Fmt} (neg : Bool) {n : Nat} {e : ℤ} (hlo : 2 ^ f.fracBits ≤ n) (hhi : n < 2 ^ (f.fracBits + 1))
    (hmin : f.emin ≤ e) (hmax : e ≤ f.emax) :
    f.Represents (packBits f neg ((e + f.bias).toNat * 2 ^ f.fracBits + (n - 2 ^ f.fracBits))) neg
      (signedBy neg (n * 2 ^ (e - f.fracBits))) := by
  unfold Fmt.emin at hmin
  unfold Fmt.emax at hmax
  rw [pow_succ] at hhi
  have hex : (e + f.bias).toNat < f.expMax := by rw [Fmt.expMax_eq]; omega
  have hrep := packBits_represents (neg := neg) hex (show n - 2 ^ f.fracBits < 2 ^ f.fracBits by omega)
  have hpos : 0 < (e + f.bias).toNat := by omega
  rw [if_neg hpos.ne', Nat.add_sub_cancel' hlo, max_eq_left hpos, mul_assoc, signedBy_eq_mul] at hrep
  rwa [show e - (f.fracBits : ℤ) = ((e + f.bias).toNat : ℤ) - f.bias - f.fracBits by omega]

/-- The pattern of a multiple of the smallest step: a subnormal number, a zero, or the smallest normal number (R291). -/
theorem represents_subnormal {f : Fmt} (neg : Bool) {n : Nat} (h : n ≤ 2 ^ f.fracBits) :
    f.Represents (packBits f neg n) neg (signedBy neg (n * 2 ^ (f.emin - f.fracBits))) := by
  rcases h.lt_or_eq with hlt | rfl
  · have hrep := packBits_represents (f := f) (neg := neg) (ex := 0) (by rw [Fmt.expMax_eq]; omega) hlt
    rw [if_pos rfl, mul_assoc, signedBy_eq_mul, zero_mul, zero_add] at hrep
    exact hrep
  · have hbias := f.bias_pos
    have hrep := represents_normal (f := f) neg le_rfl (Nat.pow_lt_pow_succ one_lt_two) le_rfl
      (show f.emin ≤ f.emax by unfold Fmt.emin Fmt.emax; omega)
    rwa [show (f.emin + f.bias).toNat = 1 by unfold Fmt.emin; omega, Nat.sub_self, one_mul, add_zero] at hrep

/-- The largest finite number: every bit of its significand is 1. -/
theorem Fmt.maxFinite_eq (f : Fmt) :
    ((f.maxFinite : ℚ) : ℝ) = ((2 ^ (f.fracBits + 1) - 1 : Nat) : ℝ) * 2 ^ (f.emax - f.fracBits) := by
  have hpow : (2 : ℝ) ^ (f.emax - f.fracBits) = 2 ^ f.emax * 2 ^ (-(f.fracBits : ℤ)) := by
    rw [← two_zpow_add, sub_eq_add_neg]
  have hone : (2 : ℝ) ^ f.fracBits * 2 ^ (-(f.fracBits : ℤ)) = 1 := by
    rw [← zpow_natCast, ← two_zpow_add, add_neg_cancel, zpow_zero]
  rw [Fmt.maxFinite, hpow, Nat.cast_sub Nat.one_le_two_pow]
  push_cast
  rw [pow_succ]
  linear_combination (-2 * (2 : ℝ) ^ f.emax) * hone

theorem maxFiniteBits_represents (f : Fmt) (neg : Bool) :
    f.Represents (maxFiniteBits f neg) neg ((if neg then -f.maxFinite else f.maxFinite : ℚ) : ℝ) := by
  have hp : 0 < 2 ^ f.fracBits := Nat.two_pow_pos _
  have hbias := f.bias_pos
  have hrep := represents_normal (f := f) (n := 2 ^ (f.fracBits + 1) - 1) neg (by rw [pow_succ]; omega)
    (Nat.sub_lt (Nat.two_pow_pos _) one_pos) (show f.emin ≤ f.emax by unfold Fmt.emin Fmt.emax; omega) le_rfl
  have hbits : (f.emax + f.bias).toNat * 2 ^ f.fracBits + (2 ^ (f.fracBits + 1) - 1 - 2 ^ f.fracBits) =
      f.expMax * 2 ^ f.fracBits - 1 := by
    rw [Fmt.expMax_eq, show (f.emax + f.bias).toNat = 2 * f.bias by unfold Fmt.emax; omega, add_one_mul, pow_succ]
    omega
  rw [hbits, ← Fmt.maxFinite_eq] at hrep
  cases neg
  · exact hrep
  · rwa [if_pos rfl, Rat.cast_neg]

/-- The overflow result of each direction (R295 c). -/
theorem isOverflowResult_overflowBits (f : Fmt) (m : RMode) (neg : Bool) : IsOverflowResult f m neg (overflowBits f m neg) := by
  have hinf := infBits_represents f neg
  have hmax := maxFiniteBits_represents f neg
  cases m
  case rne | rmm => exact hinf
  case rtz => exact hmax
  case rdn | rup => cases neg <;> assumption

/-! ### A magnitude rounded to the precision of a format -/

/-- A magnitude rounded to the precision of a format with unbounded exponent, in steps of the last bit of its exponent. -/
def Mag.steps (v : Mag) (f : Fmt) (m : RMode) (neg : Bool) : Nat := (v.cut (v.log2 - f.fracBits)).round m neg

/-- The magnitude so rounded, the `w` of `IsRound`. -/
noncomputable def Mag.rounded (v : Mag) (f : Fmt) (m : RMode) (neg : Bool) : ℝ :=
  v.steps f m neg * 2 ^ (v.log2 - f.fracBits)

/-- The exponent of the magnitude so rounded, which is the next one where all bits carry. -/
def Mag.roundedLog2 (v : Mag) (f : Fmt) (m : RMode) (neg : Bool) : ℤ :=
  if v.steps f m neg = 2 ^ (f.fracBits + 1) then v.log2 + 1 else v.log2

theorem Mag.log2_le_roundedLog2 (v : Mag) (f : Fmt) (m : RMode) (neg : Bool) : v.log2 ≤ v.roundedLog2 f m neg := by
  unfold Mag.roundedLog2
  split <;> omega

theorem Mag.rounded_nonneg (v : Mag) (f : Fmt) (m : RMode) (neg : Bool) : 0 ≤ v.rounded f m neg := by
  unfold Mag.rounded
  positivity

section

variable {v : Mag} {x : ℝ} (h : v.Is x) (hn : 0 < v.num) (hd : 0 < v.den) (f : Fmt) (m : RMode) (neg : Bool)

include h hd in
/-- Cutting and rounding keeps a magnitude just where the cut is exact. -/
theorem Mag.round_mul_eq_iff (q : ℤ) : ((v.cut q).round m neg : ℝ) * 2 ^ q = x ↔ (v.cut q).exact = true := by
  rw [← (Mag.cut_is h hd q).round_eq_iff m neg, eq_div_iff (two_zpow_pos q).ne']

include h hn hd

theorem Mag.steps_mem : 2 ^ f.fracBits ≤ v.steps f m neg ∧ v.steps f m neg ≤ 2 ^ (f.fracBits + 1) := by
  obtain ⟨hlo, hhi⟩ := Mag.log2_spec h hn hd
  apply (Mag.cut_is h hd _).round_mem
  · rw [le_div_iff₀ (two_zpow_pos _), Nat.cast_pow, Nat.cast_ofNat, ← zpow_natCast, ← two_zpow_add, add_sub_cancel]
    exact hlo
  · rw [div_lt_iff₀ (two_zpow_pos _), Nat.cast_pow, Nat.cast_ofNat, ← zpow_natCast, ← two_zpow_add]
    rwa [show ((f.fracBits + 1 : ℕ) : ℤ) + (v.log2 - f.fracBits) = v.log2 + 1 by omega]

/-- The rounded magnitude has a significand of the format's precision at its own exponent, and the fields that `roundTo` packs are
those of the two. -/
theorem Mag.exists_significand :
    ∃ n : Nat, 2 ^ f.fracBits ≤ n ∧ n < 2 ^ (f.fracBits + 1) ∧
      v.rounded f m neg = n * 2 ^ (v.roundedLog2 f m neg - f.fracBits) ∧
      (f.emin ≤ v.roundedLog2 f m neg →
        (v.log2 + f.bias).toNat * 2 ^ f.fracBits + (v.steps f m neg - 2 ^ f.fracBits) =
          (v.roundedLog2 f m neg + f.bias).toNat * 2 ^ f.fracBits + (n - 2 ^ f.fracBits)) := by
  obtain ⟨hlo, hhi⟩ := Mag.steps_mem h hn hd f m neg
  unfold Mag.roundedLog2 Mag.rounded
  split
  · rename_i hcarry
    refine ⟨2 ^ f.fracBits, le_rfl, Nat.pow_lt_pow_succ one_lt_two, ?_, fun hmin => ?_⟩
    · rw [hcarry, add_sub_right_comm, two_zpow_add]
      push_cast
      ring
    · unfold Fmt.emin at hmin
      rw [hcarry, show (v.log2 + 1 + f.bias).toNat = (v.log2 + f.bias).toNat + 1 by omega, add_one_mul, pow_succ]
      omega
  · exact ⟨_, hlo, lt_of_le_of_ne hhi (by assumption), rfl, fun _ => rfl⟩

/-- The rounded magnitude is in the binade of its exponent. -/
theorem Mag.roundedLog2_spec :
    (2 : ℝ) ^ v.roundedLog2 f m neg ≤ v.rounded f m neg ∧ v.rounded f m neg < (2 : ℝ) ^ (v.roundedLog2 f m neg + 1) := by
  obtain ⟨n, hlo, hhi, heq, -⟩ := Mag.exists_significand h hn hd f m neg
  rw [heq]
  generalize v.roundedLog2 f m neg = e
  have hlo' : (2 : ℝ) ^ (f.fracBits : ℤ) ≤ n := by exact_mod_cast hlo
  have hhi' : (n : ℝ) < 2 ^ ((f.fracBits : ℤ) + 1) := by exact_mod_cast hhi
  constructor
  · calc (2 : ℝ) ^ e = 2 ^ (f.fracBits : ℤ) * 2 ^ (e - f.fracBits) := by rw [← two_zpow_add]; congr 1; omega
      _ ≤ n * 2 ^ (e - f.fracBits) := mul_le_mul_of_nonneg_right hlo' (two_zpow_pos _).le
  · calc (n : ℝ) * 2 ^ (e - f.fracBits) < 2 ^ ((f.fracBits : ℤ) + 1) * 2 ^ (e - f.fracBits) :=
          mul_lt_mul_of_pos_right hhi' (two_zpow_pos _)
      _ = 2 ^ (e + 1) := by rw [← two_zpow_add]; congr 1; omega

/-- The rounded magnitude overflows just where its exponent is above the largest (R295 c). -/
theorem Mag.maxFinite_lt_rounded_iff : ((f.maxFinite : ℚ) : ℝ) < v.rounded f m neg ↔ f.emax < v.roundedLog2 f m neg := by
  rw [Fmt.maxFinite_eq]
  constructor
  · obtain ⟨n, -, hhi, heq, -⟩ := Mag.exists_significand h hn hd f m neg
    rw [heq]
    refine fun hlt => lt_of_not_ge fun hle => absurd hlt (not_lt.mpr ?_)
    have hn' : (n : ℝ) ≤ (2 ^ (f.fracBits + 1) - 1 : Nat) := by exact_mod_cast Nat.le_sub_one_of_lt hhi
    exact mul_le_mul hn' (two_zpow_le.mpr (by omega)) (two_zpow_pos _).le (Nat.cast_nonneg _)
  · intro hlt
    calc ((2 ^ (f.fracBits + 1) - 1 : Nat) : ℝ) * 2 ^ (f.emax - f.fracBits)
        < ((2 ^ (f.fracBits + 1) : Nat) : ℝ) * 2 ^ (f.emax - f.fracBits) :=
          mul_lt_mul_of_pos_right (Nat.cast_lt.mpr (Nat.sub_lt (Nat.two_pow_pos _) one_pos)) (two_zpow_pos _)
      _ = 2 ^ (f.emax + 1) := by
          rw [Nat.cast_pow, Nat.cast_ofNat, ← zpow_natCast, ← two_zpow_add]
          congr 1
          push_cast
          omega
      _ ≤ 2 ^ v.roundedLog2 f m neg := two_zpow_le.mpr (by omega)
      _ ≤ v.rounded f m neg := (Mag.roundedLog2_spec h hn hd f m neg).1

end

/-! ### Tininess (R295 d, R302) -/

/-- Whether a number with exponent `e`, and exponent `e'` once rounded, is tiny. -/
def Fmt.tinyAt (f : Fmt) (tiny : Tininess) (e e' : ℤ) : Bool :=
  match tiny with
  | .beforeRounding => decide (e < f.emin)
  | .afterRounding => decide (e' < f.emin)

/-- Whether a magnitude, `w` once rounded, is tiny. -/
def Fmt.IsTiny (f : Fmt) (tiny : Tininess) (x w : ℝ) : Prop :=
  match tiny with
  | .beforeRounding => x < 2 ^ f.emin
  | .afterRounding => w < 2 ^ f.emin

theorem isTiny_iff_tinyAt {v : Mag} {x : ℝ} (h : v.Is x) (hn : 0 < v.num) (hd : 0 < v.den) (f : Fmt) (tiny : Tininess)
    (m : RMode) (neg : Bool) :
    f.IsTiny tiny x (v.rounded f m neg) ↔ f.tinyAt tiny v.log2 (v.roundedLog2 f m neg) = true := by
  obtain ⟨hlo, hhi⟩ := Mag.log2_spec h hn hd
  obtain ⟨hlo', hhi'⟩ := Mag.roundedLog2_spec h hn hd f m neg
  cases tiny
  · exact (binade_lt_iff hlo hhi _).trans decide_eq_true_iff.symm
  · exact (binade_lt_iff hlo' hhi' _).trans decide_eq_true_iff.symm

/-- What is tiny has an exponent below the normal ones, since rounding does not lower it. -/
theorem Fmt.lt_emin_of_tinyAt {f : Fmt} {tiny : Tininess} {e e' : ℤ} (he : e ≤ e') (h : f.tinyAt tiny e e' = true) :
    e < f.emin := by
  cases tiny
  · exact of_decide_eq_true h
  · exact he.trans_lt (of_decide_eq_true h)

/-- What is not tiny has a normal exponent once rounded. -/
theorem Fmt.emin_le_of_tinyAt {f : Fmt} {tiny : Tininess} {e e' : ℤ} (he : e ≤ e') (h : f.tinyAt tiny e e' = false) :
    f.emin ≤ e' := by
  cases tiny
  · exact (not_lt.mp (of_decide_eq_false h)).trans he
  · exact not_lt.mp (of_decide_eq_false h)

/-! ### `roundTo` -/

section

variable {f : Fmt} {tiny : Tininess} {m : RMode} {neg : Bool} {v : Mag}

theorem roundTo_of_overflow (h : f.emax < v.roundedLog2 f m neg) :
    roundTo f tiny m neg v = ⟨overflowBits f m neg, { FFlags.none with of := true, nx := true }⟩ :=
  if_pos h

theorem roundTo_of_tiny (h : v.roundedLog2 f m neg ≤ f.emax) (ht : f.tinyAt tiny v.log2 (v.roundedLog2 f m neg) = true) :
    roundTo f tiny m neg v =
      ⟨packBits f neg ((v.cut (f.emin - f.fracBits)).round m neg),
        { FFlags.none with
          uf := !(v.cut (f.emin - f.fracBits)).exact, nx := !(v.cut (f.emin - f.fracBits)).exact }⟩ :=
  (if_neg h.not_gt).trans (if_pos ht)

theorem roundTo_of_normal (h : v.roundedLog2 f m neg ≤ f.emax) (ht : f.tinyAt tiny v.log2 (v.roundedLog2 f m neg) = false) :
    roundTo f tiny m neg v =
      ⟨packBits f neg ((v.log2 + f.bias).toNat * 2 ^ f.fracBits + (v.steps f m neg - 2 ^ f.fracBits)),
        { FFlags.none with nx := !(v.cut (v.log2 - f.fracBits)).exact }⟩ :=
  (if_neg h.not_gt).trans (if_neg (Bool.eq_false_iff.mp ht))

variable {x : ℝ} (h : v.Is x) (hn : 0 < v.num) (hd : 0 < v.den)

include h hd in
/-- Cutting and rounding a number with a sign is inexact just where the cut is. -/
theorem inexact_iff (q : ℤ) :
    (!(v.cut q).exact) = true ↔ signedBy neg ((v.cut q).round m neg * 2 ^ q : ℝ) ≠ signedBy neg x := by
  rw [Bool.not_eq_true', ← Bool.not_eq_true, ← Mag.round_mul_eq_iff h hd m neg, Ne, signedBy_inj]

include h hn hd

/-- The pattern of a tiny result. -/
theorem represents_tiny (ht : v.log2 < f.emin) :
    f.Represents (packBits f neg ((v.cut (f.emin - f.fracBits)).round m neg)) neg
      (signedBy neg ((v.cut (f.emin - f.fracBits)).round m neg * 2 ^ (f.emin - f.fracBits))) := by
  have hcut := Mag.cut_is h hd (f.emin - f.fracBits)
  have hx : x / 2 ^ (f.emin - f.fracBits) < (2 ^ f.fracBits : Nat) := by
    rw [div_lt_iff₀ (two_zpow_pos _), Nat.cast_pow, Nat.cast_ofNat, ← zpow_natCast, ← two_zpow_add, add_sub_cancel]
    exact (Mag.log2_spec h hn hd).2.trans_le (two_zpow_le.mpr (by omega))
  exact represents_subnormal neg (hcut.round_mem m neg (lo := 0) (by simpa using hcut.nonneg) hx).2

/-- The pattern of a result that is neither tiny nor overflows. -/
theorem represents_rounded (hmin : f.emin ≤ v.roundedLog2 f m neg) (hmax : v.roundedLog2 f m neg ≤ f.emax) :
    f.Represents (packBits f neg ((v.log2 + f.bias).toNat * 2 ^ f.fracBits + (v.steps f m neg - 2 ^ f.fracBits))) neg
      (signedBy neg (v.rounded f m neg)) := by
  obtain ⟨n, hlo, hhi, heq, hbits⟩ := Mag.exists_significand h hn hd f m neg
  rw [heq, hbits hmin]
  exact represents_normal neg hlo hhi hmin hmax

variable (f tiny m neg)

/-- `roundTo` is the rounding of R295 for every ratio of integers and every square root of one, with either sign. -/
theorem roundTo_isRound : IsRound f tiny m (signedBy neg x) (roundTo f tiny m neg v) := by
  have hx := h.pos hn hd
  obtain ⟨hlo, hhi⟩ := Mag.log2_spec h hn hd
  have hv : |signedBy neg x| = x := abs_signedBy neg hx.le
  have hw : |signedBy neg (v.rounded f m neg)| = v.rounded f m neg := abs_signedBy neg (v.rounded_nonneg f m neg)
  have hoverflow := Mag.maxFinite_lt_rounded_iff h hn hd f m neg
  have hfinite : v.rounded f m neg ≤ f.maxFinite → v.roundedLog2 f m neg ≤ f.emax := fun hfin =>
    not_lt.mp fun hc => hfin.not_gt (hoverflow.mpr hc)
  have htiny := isTiny_iff_tinyAt h hn hd f tiny m neg
  have hexp := v.log2_le_roundedLog2 f m neg
  refine ⟨v.log2, signedBy neg (v.steps f m neg : ℤ), signedBy neg (v.rounded f m neg), neg, hv.symm ▸ hlo, hv.symm ▸ hhi,
    ?_, ?_, signedBy_neg_iff neg hx, ?_⟩
  · rw [signedBy_div]
    exact (Mag.cut_is h hd _).roundsToInt_signedBy m neg
  · rw [signedBy_cast, signedBy_mul]
    rfl
  · dsimp only
    rw [hv, hw]
    refine ⟨fun hover => ?_, fun hfin ht => ?_, fun hfin ht => ?_⟩
    · rw [roundTo_of_overflow (hoverflow.mp hover)]
      exact ⟨isOverflowResult_overflowBits f m neg, rfl⟩
    · rw [roundTo_of_tiny (hfinite hfin) (htiny.mp ht)]
      refine ⟨signedBy neg ((v.cut (f.emin - f.fracBits)).round m neg : ℤ), !(v.cut (f.emin - f.fracBits)).exact,
        ?_, ?_, ?_, rfl⟩
      · rw [signedBy_div]
        exact (Mag.cut_is h hd _).roundsToInt_signedBy m neg
      · rw [signedBy_cast, signedBy_mul]
        exact represents_tiny h hn hd (Fmt.lt_emin_of_tinyAt hexp (htiny.mp ht))
      · rw [signedBy_cast, signedBy_mul]
        exact inexact_iff h hd _
    · have hnot : f.tinyAt tiny v.log2 (v.roundedLog2 f m neg) = false :=
        Bool.eq_false_iff.mpr fun hc => ht (htiny.mpr hc)
      rw [roundTo_of_normal (hfinite hfin) hnot]
      exact ⟨_, represents_rounded h hn hd (Fmt.emin_le_of_tinyAt hexp hnot) (hfinite hfin), inexact_iff h hd _, rfl⟩

end

/-! ### The statement -/

/-- Settles O50: a cut is rounded to a whole number of steps with either sign, and `roundTo` rounds the cut at the last bit of the
format. -/
theorem roundingDirections : Obligations.RoundingDirections := by
  intro v x neg hd h
  refine ⟨fun q => ?_, fun hn f tiny m => roundTo_isRound f tiny m neg h hn hd⟩
  have hcut := Mag.cut_is h hd q
  exact ⟨hcut.exact_iff, fun m => hcut.roundsToInt_signedBy m neg⟩

end Sys2Proof.Machine
end

section
/-! PROOFS. Memory (spec/20_memory.md): the bytes of an access, what an integer load and a store do where the bytes permit it,
the traps of accesses and fetches that are misaligned or denied, and the word a fetch reads. -/

namespace Sys2Proof

/-- The place, counted from the lowest address, of byte `k` of a value of `n` bytes (R52); `byteOrder_getElem` and
`byteAddr_eq` tie it to the model. -/
def Endian.place (e : Endian) (n k : Nat) : Nat :=
  match e with
  | .little => k
  | .big => n - 1 - k

theorem Endian.place_lt (e : Endian) {n k : Nat} (h : k < n) : e.place n k < n := by
  cases e <;> simp only [Endian.place] <;> omega

theorem Endian.place_place (e : Endian) {n k : Nat} (h : k < n) : e.place n (e.place n k) = k := by
  cases e <;> simp only [Endian.place]
  omega

theorem Xlen.thirtyTwo_le_bits (xl : Xlen) : 32 ≤ xl.bits := by cases xl <;> decide

theorem Xlen.bits_le_sixtyFour (xl : Xlen) : xl.bits ≤ 64 := by cases xl <;> decide

theorem Xlen.le_eight {xl : Xlen} {n : Nat} (h : 8 * n ≤ xl.bits) : n ≤ 8 := by
  have := xl.bits_le_sixtyFour
  omega

end Sys2Proof

namespace Sys2Proof.Machine

/-! ### Bits of values of `XPRLEN` bits -/

theorem trunc_getLsbD (xl : Xlen) (v : XWord) (j : Nat) : (trunc xl v).getLsbD j = (decide (j < xl.bits) && v.getLsbD j) := by
  cases xl with
  | rv32 =>
    simp only [trunc, Xlen.bits, BitVec.getLsbD_setWidth]
    by_cases h : j < 32
    · simp [h, show j < 64 by omega]
    · simp [h]
  | rv64 =>
    by_cases h : j < 64
    · simp [Xlen.bits, h]
    · simp [Xlen.bits, h, BitVec.getLsbD_of_ge v j (by omega)]

theorem zext_getLsbD {w : Nat} (xl : Xlen) (v : BitVec w) (j : Nat) :
    (zext xl v).getLsbD j = (decide (j < xl.bits) && v.getLsbD j) := by
  have hbits := xl.bits_le_sixtyFour
  rw [zext, trunc_getLsbD, BitVec.getLsbD_setWidth]
  by_cases h : j < xl.bits
  · simp [h, show j < 64 by omega]
  · simp [h]

theorem sext_getLsbD {w : Nat} (xl : Xlen) (v : BitVec w) (j : Nat) :
    (sext xl v).getLsbD j = (decide (j < xl.bits) && if j < w then v.getLsbD j else v.msb) := by
  have hbits := xl.bits_le_sixtyFour
  rw [sext, trunc_getLsbD, BitVec.getLsbD_signExtend]
  by_cases h : j < xl.bits
  · simp [h, show j < 64 by omega]
  · simp [h]

theorem signExtendedFrom_sext {w : Nat} (xl : Xlen) (v : BitVec w) (hw : 0 < w) (hx : w ≤ xl.bits) :
    SignExtendedFrom xl w (sext xl v) := by
  refine ⟨fun j hj hjx => ?_, fun j hj => ?_⟩
  · simp [sext_getLsbD, hjx, Nat.not_lt.mpr hj, show w - 1 < xl.bits by omega, hw, BitVec.msb_eq_getLsbD_last]
  · simp [sext_getLsbD, Nat.not_lt.mpr hj]

theorem zeroExtendedFrom_zext {w : Nat} (xl : Xlen) (v : BitVec w) : ZeroExtendedFrom w (zext xl v) := by
  intro j hj
  rw [zext_getLsbD, BitVec.getLsbD_of_ge v j hj, Bool.and_false]

/-! ### The bytes of a value (R52, R53) -/

theorem natOfBytes_lt (bs : List Byte) : natOfBytes bs < 256 ^ bs.length := by
  induction bs with
  | nil => decide
  | cons b bs ih =>
    have hb : b.toNat < 256 := b.isLt
    rw [natOfBytes, List.length_cons, Nat.pow_succ]
    omega

/-- Byte `k` of the number that bytes make is the one in that place. -/
theorem natOfBytes_div_mod (bs : List Byte) (k : Nat) (hk : k < bs.length) : natOfBytes bs / 256 ^ k % 256 = bs[k].toNat := by
  induction bs generalizing k with
  | nil => exact absurd hk (Nat.not_lt_zero k)
  | cons b bs ih =>
    have hb : b.toNat < 256 := b.isLt
    cases k with
    | zero =>
      rw [natOfBytes, pow_zero, Nat.div_one, List.getElem_cons_zero]
      omega
    | succ k =>
      have hrest : natOfBytes (b :: bs) / 256 = natOfBytes bs := by
        rw [natOfBytes]
        omega
      rw [Nat.pow_succ', ← Nat.div_div_eq_div_mul, hrest, List.getElem_cons_succ]
      exact ih k (Nat.lt_of_succ_lt_succ hk)

/-- Up to eight bytes are the bytes of the 64-bit value they make. -/
theorem extract_ofNat_natOfBytes (bs : List Byte) (k : Nat) (hk : k < bs.length) (h8 : bs.length ≤ 8) :
    (BitVec.ofNat 64 (natOfBytes bs)).extractLsb' (8 * k) 8 = bs[k] := by
  have hlt : natOfBytes bs < 2 ^ 64 :=
    (natOfBytes_lt bs).trans_le (Nat.pow_le_pow_right (by decide) h8)
  apply BitVec.eq_of_toNat_eq
  rw [BitVec.extractLsb'_toNat, BitVec.toNat_ofNat, Nat.mod_eq_of_lt hlt, Nat.shiftRight_eq_div_pow, Nat.pow_mul]
  exact natOfBytes_div_mod bs k hk

@[simp] theorem bytesOf_length (v : BitVec 64) (n : Nat) : (bytesOf v n).length = n := by simp [bytesOf]

theorem bytesOf_getElem (v : BitVec 64) (n k : Nat) (hk : k < (bytesOf v n).length) :
    (bytesOf v n)[k] = v.extractLsb' (8 * k) 8 := by simp [bytesOf]

@[simp] theorem byteOrder_length (e : Endian) (bs : List Byte) : (byteOrder e bs).length = bs.length := by
  cases e <;> simp [byteOrder]

theorem byteOrder_getElem (e : Endian) (bs : List Byte) (k : Nat) (hk : k < (byteOrder e bs).length) :
    (byteOrder e bs)[k] = bs[e.place bs.length k]'(e.place_lt (byteOrder_length e bs ▸ hk)) := by
  cases e
  · rfl
  · exact List.getElem_reverse _

/-! ### The addresses of an access (R51) -/

@[simp] theorem State.span_length (s : State) (a : XWord) (n : Nat) : (s.span a n).length = n := by simp [State.span]

theorem State.span_getElem (s : State) (a : XWord) (n k : Nat) (hk : k < (s.span a n).length) :
    (s.span a n)[k] = (unsigned s.cfg.xlen a + k) % s.modulus := by simp [State.span, State.modulus]

theorem State.byteAddr_eq (s : State) (a : XWord) (n k : Nat) :
    s.byteAddr a n k = (unsigned s.cfg.xlen a + s.cfg.endian.place n k) % s.modulus := by
  unfold State.byteAddr Endian.place
  cases s.cfg.endian <;> rfl

/-- Byte `k` of an access is at the address in its place of the span. -/
theorem State.span_getElem_place (s : State) (a : XWord) {n k : Nat} (hk : k < n) :
    (s.span a n)[s.cfg.endian.place n k]'(by simpa using s.cfg.endian.place_lt hk) = s.byteAddr a n k := by
  rw [State.span_getElem, State.byteAddr_eq]

/-- An access that is no larger than the address space meets no address twice, also where it wraps. -/
theorem State.span_nodup (s : State) (a : XWord) {n : Nat} (hn : n ≤ s.modulus) : (s.span a n).Nodup := by
  refine List.Nodup.map_on (fun i hi j hj hij => ?_) List.nodup_range
  have hi : i < s.modulus := (List.mem_range.mp hi).trans_le hn
  have hj : j < s.modulus := (List.mem_range.mp hj).trans_le hn
  have hmod : i % s.modulus = j % s.modulus := Nat.ModEq.add_left_cancel' _ hij
  rwa [Nat.mod_eq_of_lt hi, Nat.mod_eq_of_lt hj] at hmod

theorem State.le_modulus (s : State) {n : Nat} (hn : n ≤ 8) : n ≤ s.modulus := by
  have hbits : 3 ≤ s.cfg.xlen.bits := le_trans (by decide) s.cfg.xlen.thirtyTwo_le_bits
  exact hn.trans (Nat.pow_le_pow_right (show 0 < 2 by decide) hbits)

/-! ### Reading and writing memory -/

/-- The value read is the bytes at the addresses of the access, in the byte order of the machine (R52). -/
theorem State.holdsBytes_memRead (s : State) (a : XWord) {n : Nat} (hn : n ≤ 8) : s.HoldsBytes a n (s.memRead a n) := by
  intro k hk
  rw [State.memRead, extract_ofNat_natOfBytes _ k (by simpa) (by simpa), byteOrder_getElem]
  simp [s.span_getElem_place a hk]

/-- Holding the bytes at an address is a matter of the low bits of the value. -/
theorem State.HoldsBytes.of_low_bits {s : State} {a : XWord} {n : Nat} {v u : BitVec 64} (h : s.HoldsBytes a n v)
    (hlow : ∀ j < 8 * n, u.getLsbD j = v.getLsbD j) : s.HoldsBytes a n u := by
  intro k hk
  rw [← h k hk]
  ext i hi
  simp only [BitVec.getElem_extractLsb']
  exact hlow _ (by omega)

theorem State.HoldsBytes.zext {s : State} {a : XWord} {n : Nat} {v : BitVec 64} (h : s.HoldsBytes a n v)
    (hn : 8 * n ≤ s.cfg.xlen.bits) : s.HoldsBytes a n (zext s.cfg.xlen (v.setWidth (8 * n))) := by
  refine h.of_low_bits fun j hj => ?_
  simp [zext_getLsbD, hj, show j < s.cfg.xlen.bits by omega]

theorem State.HoldsBytes.sext {s : State} {a : XWord} {n : Nat} {v : BitVec 64} (h : s.HoldsBytes a n v)
    (hn : 8 * n ≤ s.cfg.xlen.bits) : s.HoldsBytes a n (sext s.cfg.xlen (v.setWidth (8 * n))) := by
  refine h.of_low_bits fun j hj => ?_
  simp [sext_getLsbD, hj, show j < s.cfg.xlen.bits by omega]

/-- Of bytes stored at different addresses, each reads back. -/
theorem State.read_storeBytes_of_mem (s : State) {cells : List Host.Cell} (hdiff : (cells.map (·.1)).Nodup) {c : Host.Cell}
    (hc : c ∈ cells) : Memory.read (s.storeBytes cells).mem c.1 = c.2 := by
  induction cells generalizing s with
  | nil => cases hc
  | cons d cells ih =>
    obtain ⟨hd, hrest⟩ := List.nodup_cons.mp hdiff
    rw [State.storeBytes_cons]
    rcases List.mem_cons.mp hc with rfl | hc
    · rw [State.read_storeBytes_of_not_mem _ _ _ fun e he hec => hd (List.mem_map.mpr ⟨e, he, hec⟩), State.storeByte_mem,
        Memory.read_write_self]
    · exact ih _ hrest hc

/-- Byte `k` of the value is among the bytes a write stores, with its address (R53). -/
theorem State.mem_cells (s : State) (a : XWord) {n k : Nat} (v : BitVec 64) (hk : k < n) :
    (s.byteAddr a n k, v.extractLsb' (8 * k) 8) ∈ s.cells a n v := by
  have hlt : s.cfg.endian.place n k < (s.cells a n v).length := by simpa [State.cells] using s.cfg.endian.place_lt hk
  refine List.mem_iff_getElem.mpr ⟨_, hlt, ?_⟩
  simp [State.cells, s.span_getElem_place a hk, byteOrder_getElem, bytesOf_getElem, s.cfg.endian.place_place hk]

theorem State.cells_addresses (s : State) (a : XWord) (n : Nat) (v : BitVec 64) : (s.cells a n v).map (·.1) = s.span a n :=
  List.map_fst_zip (by simp)

/-- A write puts the low bytes of the value at the addresses of the access, and leaves every other byte (R53). -/
theorem newBytes_memWrite (s : State) (a : XWord) {n : Nat} (v : BitVec 64) (hn : n ≤ 8) :
    NewBytes a n v s (s.memWrite a n v) where
  bytes _ hk := s.read_storeBytes_of_mem (s.cells_addresses a n v ▸ s.span_nodup a (s.le_modulus hn)) (s.mem_cells a v hk)
  others := s.read_memWrite_of_not_mem a n v

/-! ### Checked accesses -/

theorem loadThen_of_permitted {a : XWord} {n : Nat} {s : State} {k : BitVec 64 → Result} (h : s.Permitted [.load] a n) :
    loadThen a n s k = k (s.memRead a n) := by
  simp only [loadThen, (s.denied_eq_none _ _ _).mpr h]

theorem loadThen_of_denied {a : XWord} {n b : Nat} {s : State} {k : BitVec 64 → Result}
    (h : s.denied [.load] a n = some b) : loadThen a n s k = raise (.accessFault b .load) s := by
  simp only [loadThen, h]

theorem storeDone_of_permitted {a : XWord} {n : Nat} {v : BitVec 64} {s : State} (h : s.Permitted [.store] a n) :
    storeDone a n v s = .next (s.memWrite a n v).retire := by
  simp only [storeDone, (s.denied_eq_none _ _ _).mpr h]

theorem storeDone_of_denied {a : XWord} {n b : Nat} {v : BitVec 64} {s : State} (h : s.denied [.store] a n = some b) :
    storeDone a n v s = raise (.accessFault b .store) s := by
  simp only [storeDone, h]

theorem amo_of_misaligned {rd rs1 : Reg} {n : Nat} {op : BitVec 64 → BitVec 64} {ext : BitVec 64 → XWord} {s : State}
    (h : s.ux rs1 % n ≠ 0) : amo rd rs1 n op ext s = raise (.misalignedAddress (s.readX rs1)) s :=
  if_pos h

theorem amo_of_denied {rd rs1 : Reg} {n b : Nat} {op : BitVec 64 → BitVec 64} {ext : BitVec 64 → XWord} {s : State}
    (ha : s.ux rs1 % n = 0) (h : s.denied [.load, .store] (s.readX rs1) n = some b) :
    amo rd rs1 n op ext s = raise (.accessFault b .store) s := by
  have ha : ¬ (s.readX rs1).toNat % n ≠ 0 := not_not.mpr ha
  simp only [amo, if_neg ha, h]

/-- The lowest address of an access that denies one kind is the one reported (R476). -/
theorem State.denied_of_lowest {s : State} {kind : AccessKind} {a : XWord} {n b : Nat} (hb : b ∈ s.span a n)
    (hdeny : Perm.allows (MemMap.perm s.cfg.memMap b) kind = false)
    (hlow : ∀ c ∈ s.span a n, Perm.allows (MemMap.perm s.cfg.memMap c) kind = false → b ≤ c) :
    s.denied [kind] a n = some b := by
  refine (s.denied_eq_some _ _ _ _).mpr ?_
  simp only [List.all_cons, List.all_nil, Bool.and_true]
  exact ⟨⟨hb, hdeny⟩, hlow⟩

/-! ### Instructions that complete -/

section

variable {i : Instr} {s : State} {a : XWord} {rd : Reg} {n : Nat}

/-- A load into an x register, where the bytes may be read, completes with them, sign-extended (R121, R122). -/
theorem completesX_of_loadSigned (he : exec i s = loadThen a n s fun v => putX rd (sext s.cfg.xlen (v.setWidth (8 * n))) s)
    (hp : s.Permitted [.load] a n) (h0 : 0 < n) (hn : 8 * n ≤ s.cfg.xlen.bits) :
    CompletesX i rd s (fun v => s.HoldsBytes a n v ∧ SignExtendedFrom s.cfg.xlen (8 * n) v) :=
  completesX_of_putX (he.trans (loadThen_of_permitted hp)) (trunc_trunc _ _)
    ⟨(s.holdsBytes_memRead a (Xlen.le_eight hn)).sext hn, signExtendedFrom_sext _ _ (by omega) hn⟩

/-- A load into an x register, where the bytes may be read, completes with them, zero-extended (R121, R122). -/
theorem completesX_of_loadUnsigned (he : exec i s = loadThen a n s fun v => putX rd (zext s.cfg.xlen (v.setWidth (8 * n))) s)
    (hp : s.Permitted [.load] a n) (hn : 8 * n ≤ s.cfg.xlen.bits) :
    CompletesX i rd s (fun v => s.HoldsBytes a n v ∧ ZeroExtendedFrom (8 * n) v) :=
  completesX_of_putX (he.trans (loadThen_of_permitted hp)) (trunc_trunc _ _)
    ⟨(s.holdsBytes_memRead a (Xlen.le_eight hn)).zext hn, zeroExtendedFrom_zext _ _⟩

theorem CompletesX.imp {P Q : XWord → Prop} (h : CompletesX i rd s P) (hPQ : ∀ v, P v → Q v) : CompletesX i rd s Q := by
  obtain ⟨t, v, he, hw, hpc, hP⟩ := h
  exact ⟨t, v, he, hw, hpc, hPQ v hP⟩

/-- A store, where the bytes may be written, completes with the low bytes of its value in memory (R120, R122). -/
theorem completesStore_of_storeDone {v : BitVec 64} (he : exec i s = storeDone a n v s) (hp : s.Permitted [.store] a n)
    (hn : n ≤ 8) : CompletesStore i a n v s := by
  refine ⟨_, he.trans (storeDone_of_permitted hp), ⟨?_, ?_, by simp, by simp, by simp⟩, by simp [State.pcPlus4]⟩
  · constructor <;> simp
  · have hnew := newBytes_memWrite s a v hn
    exact ⟨hnew.bytes, hnew.others⟩

end

/-! ### Instructions that trap -/

section

variable {i : Instr} {s : State} {a : XWord} {n b : Nat}

theorem exec_of_denied_load {k : BitVec 64 → Result} (he : exec i s = loadThen a n s k) (hb : b ∈ s.span a n)
    (hdeny : Perm.allows (MemMap.perm s.cfg.memMap b) .load = false)
    (hlow : ∀ c ∈ s.span a n, Perm.allows (MemMap.perm s.cfg.memMap c) .load = false → b ≤ c) :
    exec i s = raise (.accessFault b .load) s :=
  he.trans (loadThen_of_denied (State.denied_of_lowest hb hdeny hlow))

theorem exec_of_denied_store {v : BitVec 64} (he : exec i s = storeDone a n v s) (hb : b ∈ s.span a n)
    (hdeny : Perm.allows (MemMap.perm s.cfg.memMap b) .store = false)
    (hlow : ∀ c ∈ s.span a n, Perm.allows (MemMap.perm s.cfg.memMap c) .store = false → b ≤ c) :
    exec i s = raise (.accessFault b .store) s :=
  he.trans (storeDone_of_denied (State.denied_of_lowest hb hdeny hlow))

end

/-! ### The loads, the stores and the AMOs, by the operations they call -/

section

variable {rd rs1 rs2 : Reg} {imm12 : BitVec 12} {s : State}

theorem exec_lb : exec (.lb rd rs1 imm12) s =
    loadThen (s.address rs1 imm12) 1 s fun v => putX rd (sext s.cfg.xlen (v.setWidth 8)) s := rfl

theorem exec_lh : exec (.lh rd rs1 imm12) s =
    loadThen (s.address rs1 imm12) 2 s fun v => putX rd (sext s.cfg.xlen (v.setWidth 16)) s := rfl

theorem exec_lw : exec (.lw rd rs1 imm12) s =
    loadThen (s.address rs1 imm12) 4 s fun v => putX rd (sext s.cfg.xlen (v.setWidth 32)) s := rfl

theorem exec_lbu : exec (.lbu rd rs1 imm12) s =
    loadThen (s.address rs1 imm12) 1 s fun v => putX rd (zext s.cfg.xlen (v.setWidth 8)) s := rfl

theorem exec_lhu : exec (.lhu rd rs1 imm12) s =
    loadThen (s.address rs1 imm12) 2 s fun v => putX rd (zext s.cfg.xlen (v.setWidth 16)) s := rfl

theorem exec_lwu (hx : s.cfg.xlen = .rv64) : exec (.lwu rd rs1 imm12) s =
    loadThen (s.address rs1 imm12) 4 s fun v => putX rd (zext s.cfg.xlen (v.setWidth 32)) s := rv64Only_rv64 hx

theorem exec_ld (hx : s.cfg.xlen = .rv64) : exec (.ld rd rs1 imm12) s =
    loadThen (s.address rs1 imm12) 8 s fun v => putX rd (zext s.cfg.xlen (v.setWidth 64)) s := rv64Only_rv64 hx

theorem exec_flw : exec (.flw rd rs1 imm12) s =
    loadThen (s.address rs1 imm12) 4 s fun v => putF rd (.s (v.setWidth 32)) s := rfl

theorem exec_fld : exec (.fld rd rs1 imm12) s = loadThen (s.address rs1 imm12) 8 s fun v => putF rd (.d v) s := rfl

theorem exec_sb : exec (.sb rs1 rs2 imm12) s = storeDone (s.address rs1 imm12) 1 (s.readX rs2) s := rfl

theorem exec_sh : exec (.sh rs1 rs2 imm12) s = storeDone (s.address rs1 imm12) 2 (s.readX rs2) s := rfl

theorem exec_sw : exec (.sw rs1 rs2 imm12) s = storeDone (s.address rs1 imm12) 4 (s.readX rs2) s := rfl

theorem exec_sd (hx : s.cfg.xlen = .rv64) :
    exec (.sd rs1 rs2 imm12) s = storeDone (s.address rs1 imm12) 8 (s.readX rs2) s := rv64Only_rv64 hx

theorem exec_fsw : exec (.fsw rs1 rs2 imm12) s =
    storeDone (s.address rs1 imm12) 4 ((s.readS 2 rs2).setWidth 64) s := rfl

theorem exec_fsd : exec (.fsd rs1 rs2 imm12) s = storeDone (s.address rs1 imm12) 8 (s.readD 2 rs2) s := rfl

end

section

variable {rd rs1 rs2 : Reg} {i : Instr} {s : State}

/-- The 32-bit AMOs (R153 to R160). -/
def amoWords (rd rs1 rs2 : Reg) : List Instr :=
  [.amoaddW rd rs1 rs2, .amoswapW rd rs1 rs2, .amoandW rd rs1 rs2, .amoorW rd rs1 rs2,
    .amominW rd rs1 rs2, .amomaxW rd rs1 rs2, .amominuW rd rs1 rs2, .amomaxuW rd rs1 rs2]

/-- The 64-bit AMOs (R161 to R168). -/
def amoDoubles (rd rs1 rs2 : Reg) : List Instr :=
  [.amoaddD rd rs1 rs2, .amoswapD rd rs1 rs2, .amoandD rd rs1 rs2, .amoorD rd rs1 rs2,
    .amominD rd rs1 rs2, .amomaxD rd rs1 rs2, .amominuD rd rs1 rs2, .amomaxuD rd rs1 rs2]

theorem exec_amoWord (h : i ∈ amoWords rd rs1 rs2) : ∃ op, exec i s = amoW op rd rs1 rs2 s := by
  simp only [amoWords, List.mem_cons, List.not_mem_nil, or_false] at h
  rcases h with rfl | rfl | rfl | rfl | rfl | rfl | rfl | rfl <;> unfold exec <;> exact ⟨_, rfl⟩

theorem exec_amoDouble (h : i ∈ amoDoubles rd rs1 rs2) : ∃ op, exec i s = amoD i op rd rs1 rs2 s := by
  simp only [amoDoubles, List.mem_cons, List.not_mem_nil, or_false] at h
  rcases h with rfl | rfl | rfl | rfl | rfl | rfl | rfl | rfl <;> unfold exec <;> exact ⟨_, rfl⟩

/-- Every AMO the variant provides is the template of R151, for the four bytes of a .W form or the eight of a .D form. -/
theorem exec_amo {n : Nat}
    (h : n = 4 ∧ i ∈ amoWords rd rs1 rs2 ∨ n = 8 ∧ s.cfg.xlen = .rv64 ∧ i ∈ amoDoubles rd rs1 rs2) :
    ∃ op ext, exec i s = amo rd rs1 n op ext s := by
  rcases h with ⟨rfl, hi⟩ | ⟨rfl, hx, hi⟩
  · obtain ⟨op, he⟩ := exec_amoWord (s := s) hi
    exact ⟨_, _, he⟩
  · obtain ⟨op, he⟩ := exec_amoDouble (s := s) hi
    exact ⟨_, _, he.trans (rv64Only_rv64 hx)⟩

end

/-! ### The fetch -/

theorem stepInstr_of_fetch_error {s : State} {e : Exc} (h : s.fetch = .error e) : stepInstr s = raise e s := by
  simp only [stepInstr, h]

theorem State.fetch_of_misaligned {s : State} (h : unsigned s.cfg.xlen s.pc % 4 ≠ 0) :
    s.fetch = .error .instructionAddressMisaligned :=
  if_pos h

theorem State.fetch_of_denied {s : State} {b : Nat} (ha : unsigned s.cfg.xlen s.pc % 4 = 0)
    (h : s.denied [.fetch] s.pc 4 = some b) : s.fetch = .error (.accessFault b .fetch) := by
  simp only [State.fetch, if_neg (not_not.mpr ha), h]

/-- With a fetch view that agrees with memory, the word fetched is the one memory holds. -/
theorem State.fetchWord_of_synced {s : State} (h : s.stale = []) : s.fetchWord = s.wordOf (Memory.read s.mem) s.pc :=
  State.fetchWord_of_not_stale fun _ _ c hc => by rw [h] at hc; cases hc

/-- Four bytes make the number of which they are the digits in base 256. -/
theorem ofNat_natOfBytes_four (b0 b1 b2 b3 : Byte) :
    BitVec.ofNat 64 (natOfBytes [b0, b1, b2, b3]) = ((b3 ++ b2) ++ (b1 ++ b0)).setWidth 64 := by
  apply BitVec.eq_of_toNat_eq
  have h0 := b0.isLt
  have h1 := b1.isLt
  have h2 := b2.isLt
  have h3 := b3.isLt
  simp only [natOfBytes, BitVec.toNat_ofNat, BitVec.toNat_setWidth, BitVec.toNat_append]
  rw [← Nat.shiftLeft_add_eq_or_of_lt h2, ← Nat.shiftLeft_add_eq_or_of_lt h0,
    ← Nat.shiftLeft_add_eq_or_of_lt (by rw [Nat.shiftLeft_eq]; omega)]
  simp only [Nat.shiftLeft_eq]
  omega

/-! ### The statements -/

/-- Settles O7: the alignment check is the first thing a step does. -/
theorem misalignedFetchTraps : Obligations.MisalignedFetchTraps := by
  intro s hrun hmis
  rw [step_of_not_halted hrun, stepInstr_of_fetch_error (State.fetch_of_misaligned hmis)]

/-- Settles O8: the permission check of an aligned fetch reports the lowest denied address. -/
theorem deniedFetchTraps : Obligations.DeniedFetchTraps := by
  intro s a hrun haligned ha hdeny hlow
  have hdenied : s.denied [.fetch] s.pc 4 = some a := State.denied_of_lowest ha hdeny hlow
  rw [step_of_not_halted hrun, stepInstr_of_fetch_error (State.fetch_of_denied haligned hdenied)]

/-- Settles O31: each load reads the bytes of its address and writes them extended; the sizes fit the variant. -/
theorem integerLoadResults : Obligations.IntegerLoadResults := by
  rintro rd rs1 imm s a rfl
  have hbits := s.cfg.xlen.thirtyTwo_le_bits
  refine ⟨fun hp => ⟨?_, ?_⟩, fun hp => ⟨?_, ?_⟩, fun hp => ⟨?_, fun hx => ?_⟩, fun hp hx => ?_⟩
  · exact completesX_of_loadSigned (n := 1) exec_lb hp (by omega) (by omega)
  · exact completesX_of_loadUnsigned (n := 1) exec_lbu hp (by omega)
  · exact completesX_of_loadSigned (n := 2) exec_lh hp (by omega) (by omega)
  · exact completesX_of_loadUnsigned (n := 2) exec_lhu hp (by omega)
  · exact completesX_of_loadSigned (n := 4) exec_lw hp (by omega) (by omega)
  · exact completesX_of_loadUnsigned (n := 4) (exec_lwu hx) hp (by omega)
  · exact (completesX_of_loadUnsigned (n := 8) (exec_ld hx) hp (by simp [hx, Xlen.bits])).imp fun _ h => h.1

/-- Settles O32: each store writes the low bytes of the register at its address. -/
theorem integerStoreResults : Obligations.IntegerStoreResults := by
  rintro rs1 rs2 imm s a rfl
  refine ⟨fun hp => ?_, fun hp => ?_, fun hp => ?_, fun hp hx => ?_⟩
  · exact completesStore_of_storeDone exec_sb hp (by decide)
  · exact completesStore_of_storeDone exec_sh hp (by decide)
  · exact completesStore_of_storeDone exec_sw hp (by decide)
  · exact completesStore_of_storeDone (exec_sd hx) hp (by decide)

/-- Settles O35: each load and store checks its bytes before it does anything, and an aligned AMO checks them for both kinds. -/
theorem deniedAccessTraps : Obligations.DeniedAccessTraps := by
  refine ⟨fun r rs1 imm s n b hb => ⟨?_, ?_, ?_, ?_⟩, fun rd rs1 rs2 s n b i haligned hb hdeny hlow hi => ?_⟩
  · rintro rfl
    exact ⟨exec_of_denied_load exec_lb hb, exec_of_denied_load exec_lbu hb, exec_of_denied_store exec_sb hb⟩
  · rintro rfl
    exact ⟨exec_of_denied_load exec_lh hb, exec_of_denied_load exec_lhu hb, exec_of_denied_store exec_sh hb⟩
  · rintro rfl
    exact ⟨exec_of_denied_load exec_lw hb, exec_of_denied_load exec_flw hb, exec_of_denied_store exec_sw hb,
      exec_of_denied_store exec_fsw hb, fun hx => exec_of_denied_load (exec_lwu hx) hb⟩
  · rintro rfl
    exact ⟨exec_of_denied_load exec_fld hb, exec_of_denied_store exec_fsd hb,
      fun hx => ⟨exec_of_denied_load (exec_ld hx) hb, exec_of_denied_store (exec_sd hx) hb⟩⟩
  · have hdenied : s.denied [.load, .store] (s.readX rs1) n = some b := by
      refine (s.denied_eq_some _ _ _ _).mpr ?_
      simp only [List.all_cons, List.all_nil, Bool.and_true]
      exact ⟨⟨hb, hdeny⟩, hlow⟩
    obtain ⟨op, ext, he⟩ := exec_amo hi
    exact he.trans (amo_of_denied haligned hdenied)

/-- Settles O39: the template of the AMOs checks the alignment first. -/
theorem misalignedAmoTraps : Obligations.MisalignedAmoTraps := by
  rintro rd rs1 rs2 s i (⟨hmis, hi⟩ | ⟨hx, hmis, hi⟩)
  · obtain ⟨op, ext, he⟩ := exec_amo (.inl ⟨rfl, hi⟩)
    exact he.trans (amo_of_misaligned hmis)
  · obtain ⟨op, ext, he⟩ := exec_amo (.inr ⟨rfl, hx, hi⟩)
    exact he.trans (amo_of_misaligned hmis)

/-- Settles O40: FENCE retires, and FENCE.I empties the record of old contents before it does. -/
theorem fencesAndFetchView : Obligations.FencesAndFetchView := by
  intro rd rs1 imm s
  refine ⟨⟨s.retire, rfl, ⟨?_, ?_, rfl, rfl, rfl⟩, rfl⟩,
    s.syncFetch.retire, rfl, ?_, rfl, rfl, rfl, rfl, rfl, fun a => ?_, fun pc n => ?_⟩
  · constructor <;> rfl
  · constructor <;> rfl
  · constructor <;> rfl
  · exact State.fetchByte_of_not_stale _ a nofun
  · exact State.fetchWord_of_synced rfl

/-- Settles O42: the fetch and the 4-byte read meet the same four bytes, which they put together in their own order. -/
theorem fetchParcelOrder : Obligations.FetchParcelOrder := by
  intro s hsync
  obtain ⟨b0, b1, b2, b3, hbytes⟩ : ∃ b0 b1 b2 b3, (s.span s.pc 4).map (Memory.read s.mem) = [b0, b1, b2, b3] :=
    ⟨_, _, _, _, rfl⟩
  have hword := (State.fetchWord_of_synced hsync).trans (State.wordOf_eq_assembleParcels hbytes)
  refine ⟨fun he => ?_, fun he => ?_⟩
  · have hread : s.memRead s.pc 4 = ((b3 ++ b2) ++ (b1 ++ b0)).setWidth 64 := by
      rw [State.memRead, hbytes, he]
      exact ofNat_natOfBytes_four b0 b1 b2 b3
    rw [hword, he, hread]
    simp [assembleParcels]
  · have hread : s.memRead s.pc 4 = ((b0 ++ b1) ++ (b2 ++ b3)).setWidth 64 := by
      rw [State.memRead, hbytes, he]
      exact ofNat_natOfBytes_four b3 b2 b1 b0
    rw [hword, he, hread]
    rw [BitVec.extractLsb'_setWidth_of_le (by decide), BitVec.extractLsb'_setWidth_of_le (by decide),
      BitVec.extractLsb'_append_eq_left, BitVec.extractLsb'_append_eq_right]
    rfl

end Sys2Proof.Machine
end

section
/-! PROOFS. The encoding (spec/30_encoding.md): the words of each format by their fields, the row of each instruction, and
the two round trips between words and instructions. -/

namespace Sys2Proof

/-! ### Concatenations as slices -/

/-- Two vectors side by side are a slice of `w` just where each is its part of the slice. -/
theorem append_eq_extractLsb'_iff {m n k s : Nat} {x : BitVec m} {y : BitVec n} {w : BitVec k} :
    x ++ y = w.extractLsb' s (m + n) ↔ x = w.extractLsb' (s + n) m ∧ y = w.extractLsb' s n := by
  rw [← BitVec.extractLsb'_append_extractLsb'_eq_extractLsb' rfl]
  constructor
  · intro h
    have hx := congrArg (BitVec.extractLsb' n m) h
    have hy := congrArg (BitVec.extractLsb' 0 n) h
    rw [BitVec.extractLsb'_append_eq_left, BitVec.extractLsb'_append_eq_left] at hx
    rw [BitVec.extractLsb'_append_eq_right, BitVec.extractLsb'_append_eq_right] at hy
    exact ⟨hx, hy⟩
  · rintro ⟨rfl, rfl⟩
    rfl

theorem append_eq_iff {m n : Nat} {x : BitVec m} {y : BitVec n} {w : BitVec (m + n)} :
    x ++ y = w ↔ x = w.extractLsb' n m ∧ y = w.extractLsb' 0 n := by
  simpa using append_eq_extractLsb'_iff (x := x) (y := y) (w := w) (s := 0)

/-! ### The words of each format, by their fields (R82 to R89, R92)

The operands come first, then the fields that a row fixes. -/

section

variable {rd rs1 rs2 rs3 : Reg} {op : BitVec 7} {w : IWord}

theorem encR_eq_iff {funct10 : BitVec 10} : encR rd rs1 rs2 funct10 op = w ↔
    rd = fieldRd w ∧ rs1 = fieldRs1 w ∧ rs2 = fieldRs2 w ∧ funct10 = w.extractLsb' 7 10 ∧ op = w.extractLsb' 0 7 :=
  append_eq_iff.trans (by simp only [append_eq_extractLsb'_iff, and_assoc]; rfl)

theorem encR4_eq_iff {rm : BitVec 3} {fmt : BitVec 2} : encR4 rd rs1 rs2 rs3 rm fmt op = w ↔
    rd = fieldRd w ∧ rs1 = fieldRs1 w ∧ rs2 = fieldRs2 w ∧ rs3 = fieldRs3 w ∧ rm = fieldRm w ∧
      fmt = w.extractLsb' 7 2 ∧ op = w.extractLsb' 0 7 :=
  append_eq_iff.trans (by simp only [append_eq_extractLsb'_iff, and_assoc]; rfl)

theorem encI_eq_iff {imm12 : BitVec 12} {funct3 : BitVec 3} : encI rd rs1 imm12 funct3 op = w ↔
    rd = fieldRd w ∧ rs1 = fieldRs1 w ∧ imm12 = fieldImmI w ∧ funct3 = w.extractLsb' 7 3 ∧ op = w.extractLsb' 0 7 :=
  append_eq_iff.trans (by simp only [append_eq_extractLsb'_iff, and_assoc]; rfl)

/-- The immediate of a B-type word is its upper five bits and its lower seven (R86). -/
theorem eq_fieldImmB_iff {imm12 : BitVec 12} :
    imm12 = fieldImmB w ↔ imm12.extractLsb' 7 5 = w.extractLsb' 27 5 ∧ imm12.extractLsb' 0 7 = w.extractLsb' 10 7 := by
  rw [eq_comm, fieldImmB, append_eq_iff (m := 5) (n := 7), eq_comm, eq_comm (a := w.extractLsb' 10 7)]

theorem encB_eq_iff {imm12 : BitVec 12} {funct3 : BitVec 3} : encB rs1 rs2 imm12 funct3 op = w ↔
    rs1 = fieldRs1 w ∧ rs2 = fieldRs2 w ∧ imm12 = fieldImmB w ∧ funct3 = w.extractLsb' 7 3 ∧ op = w.extractLsb' 0 7 := by
  have slices : encB rs1 rs2 imm12 funct3 op = w ↔ imm12.extractLsb' 7 5 = w.extractLsb' 27 5 ∧ rs1 = fieldRs1 w ∧
      rs2 = fieldRs2 w ∧ imm12.extractLsb' 0 7 = w.extractLsb' 10 7 ∧ funct3 = w.extractLsb' 7 3 ∧ op = w.extractLsb' 0 7 :=
    append_eq_iff.trans (by simp only [append_eq_extractLsb'_iff, and_assoc]; rfl)
  rw [slices, eq_fieldImmB_iff]
  tauto

theorem encL_eq_iff {imm20 : BitVec 20} : encL rd imm20 op = w ↔
    rd = fieldRd w ∧ imm20 = fieldImm20 w ∧ op = w.extractLsb' 0 7 :=
  append_eq_iff.trans (by simp only [append_eq_extractLsb'_iff, and_assoc]; rfl)

theorem encJ_eq_iff {off25 : BitVec 25} : encJ off25 op = w ↔ off25 = fieldOff25 w ∧ op = w.extractLsb' 0 7 :=
  append_eq_iff

theorem encSh_eq_iff {kind shamt : BitVec 6} {funct3 : BitVec 3} : encSh rd rs1 kind shamt funct3 op = w ↔
    rd = fieldRd w ∧ rs1 = fieldRs1 w ∧ shamt = fieldShamt w ∧
      kind = w.extractLsb' 16 6 ∧ funct3 = w.extractLsb' 7 3 ∧ op = w.extractLsb' 0 7 :=
  append_eq_iff.trans (by simp only [append_eq_extractLsb'_iff, and_assoc, and_left_comm (a := kind = _)]; rfl)

theorem encShW_eq_iff {kind : BitVec 7} {shamt : BitVec 5} {funct3 : BitVec 3} : encShW rd rs1 kind shamt funct3 op = w ↔
    rd = fieldRd w ∧ rs1 = fieldRs1 w ∧ shamt = fieldShamtW w ∧
      kind = w.extractLsb' 15 7 ∧ funct3 = w.extractLsb' 7 3 ∧ op = w.extractLsb' 0 7 :=
  append_eq_iff.trans (by simp only [append_eq_extractLsb'_iff, and_assoc, and_left_comm (a := kind = _)]; rfl)

theorem encFp2_eq_iff {funct5 : BitVec 5} {rm : BitVec 3} {fmt : BitVec 2} : encFp2 rd rs1 rs2 funct5 rm fmt op = w ↔
    rd = fieldRd w ∧ rs1 = fieldRs1 w ∧ rs2 = fieldRs2 w ∧ rm = fieldRm w ∧
      funct5 = w.extractLsb' 12 5 ∧ fmt = w.extractLsb' 7 2 ∧ op = w.extractLsb' 0 7 :=
  append_eq_iff.trans (by simp only [append_eq_extractLsb'_iff, and_assoc, and_left_comm (a := funct5 = _)]; rfl)

theorem encFp1_eq_iff {funct5 : BitVec 5} {rm : BitVec 3} {fmt : BitVec 2} : encFp1 rd rs1 funct5 rm fmt op = w ↔
    rd = fieldRd w ∧ rs1 = fieldRs1 w ∧ rm = fieldRm w ∧
      0#5 = fieldRs2 w ∧ funct5 = w.extractLsb' 12 5 ∧ fmt = w.extractLsb' 7 2 ∧ op = w.extractLsb' 0 7 :=
  encFp2_eq_iff.trans (by rw [and_left_comm (a := 0#5 = _)])

theorem encSrc1_eq_iff {funct10 : BitVec 10} : encSrc1 rd rs1 funct10 op = w ↔
    rd = fieldRd w ∧ rs1 = fieldRs1 w ∧ 0#5 = fieldRs2 w ∧ funct10 = w.extractLsb' 7 10 ∧ op = w.extractLsb' 0 7 :=
  encR_eq_iff

theorem encSrc2_eq_iff {funct10 : BitVec 10} : encSrc2 rd rs2 funct10 op = w ↔
    rd = fieldRd w ∧ rs2 = fieldRs2 w ∧ 0#5 = fieldRs1 w ∧ funct10 = w.extractLsb' 7 10 ∧ op = w.extractLsb' 0 7 :=
  encR_eq_iff.trans (by rw [and_left_comm (a := 0#5 = _)])

theorem encDest_eq_iff {fixed : BitVec 20} : encDest rd fixed op = w ↔
    rd = fieldRd w ∧ fixed = fieldImm20 w ∧ op = w.extractLsb' 0 7 :=
  encL_eq_iff

theorem encNone_eq_iff {fixed : BitVec 25} : encNone fixed op = w ↔ fixed = fieldOff25 w ∧ op = w.extractLsb' 0 7 :=
  encJ_eq_iff

end

/-! ### The words a row accepts (R91 step 2)

The mask of a row is all ones in the fields that its words fix, and 0 in their operands. -/

theorem Row.accepts_iff {r : Row} {w : IWord} : r.accepts w = true ↔ r.fixed = w &&& r.mask := by
  rw [Row.accepts, beq_iff_eq, eq_comm]

theorem and_of_eq_allOnes {n : Nat} {v m : BitVec n} (h : m = BitVec.allOnes n) : v &&& m = v := by
  rw [h, BitVec.and_allOnes]

section

variable {op : BitVec 7} {w : IWord}

theorem rowR_accepts_iff {funct10 : BitVec 10} {mk : Reg → Reg → Reg → Instr} :
    (rowR funct10 op mk).accepts w = true ↔ funct10 = w.extractLsb' 7 10 ∧ op = w.extractLsb' 0 7 :=
  Row.accepts_iff.trans <| encR_eq_iff.trans <| by
    simp (disch := decide) [rowR, fieldRd, fieldRs1, fieldRs2, BitVec.extractLsb'_and, and_of_eq_allOnes]

theorem rowR4_accepts_iff {fmt : BitVec 2} {mk : Reg → Reg → Reg → Reg → BitVec 3 → Instr} :
    (rowR4 fmt op mk).accepts w = true ↔ fmt = w.extractLsb' 7 2 ∧ op = w.extractLsb' 0 7 :=
  Row.accepts_iff.trans <| encR4_eq_iff.trans <| by
    simp (disch := decide) [rowR4, fieldRd, fieldRs1, fieldRs2, fieldRs3, fieldRm, BitVec.extractLsb'_and, and_of_eq_allOnes]

theorem rowI_accepts_iff {funct3 : BitVec 3} {mk : Reg → Reg → BitVec 12 → Instr} :
    (rowI funct3 op mk).accepts w = true ↔ funct3 = w.extractLsb' 7 3 ∧ op = w.extractLsb' 0 7 :=
  Row.accepts_iff.trans <| encI_eq_iff.trans <| by
    simp (disch := decide) [rowI, fieldRd, fieldRs1, fieldImmI, BitVec.extractLsb'_and, and_of_eq_allOnes]

theorem rowB_accepts_iff {funct3 : BitVec 3} {mk : Reg → Reg → BitVec 12 → Instr} :
    (rowB funct3 op mk).accepts w = true ↔ funct3 = w.extractLsb' 7 3 ∧ op = w.extractLsb' 0 7 :=
  Row.accepts_iff.trans <| encB_eq_iff.trans <| by
    simp (disch := decide) [rowB, fieldRs1, fieldRs2, eq_fieldImmB_iff, BitVec.extractLsb'_and, and_of_eq_allOnes]

theorem rowL_accepts_iff {mk : Reg → BitVec 20 → Instr} : (rowL op mk).accepts w = true ↔ op = w.extractLsb' 0 7 :=
  Row.accepts_iff.trans <| encL_eq_iff.trans <| by
    simp (disch := decide) [rowL, fieldRd, fieldImm20, BitVec.extractLsb'_and, and_of_eq_allOnes]

theorem rowJ_accepts_iff {mk : BitVec 25 → Instr} : (rowJ op mk).accepts w = true ↔ op = w.extractLsb' 0 7 :=
  Row.accepts_iff.trans <| encJ_eq_iff.trans <| by
    simp (disch := decide) [rowJ, fieldOff25, BitVec.extractLsb'_and, and_of_eq_allOnes]

theorem rowSh_accepts_iff {kind : BitVec 6} {funct3 : BitVec 3} {mk : Reg → Reg → BitVec 6 → Instr} :
    (rowSh kind funct3 op mk).accepts w = true ↔
      kind = w.extractLsb' 16 6 ∧ funct3 = w.extractLsb' 7 3 ∧ op = w.extractLsb' 0 7 :=
  Row.accepts_iff.trans <| encSh_eq_iff.trans <| by
    simp (disch := decide) [rowSh, fieldRd, fieldRs1, fieldShamt, BitVec.extractLsb'_and, and_of_eq_allOnes]

theorem rowShW_accepts_iff {kind : BitVec 7} {funct3 : BitVec 3} {mk : Reg → Reg → BitVec 5 → Instr} :
    (rowShW kind funct3 op mk).accepts w = true ↔
      kind = w.extractLsb' 15 7 ∧ funct3 = w.extractLsb' 7 3 ∧ op = w.extractLsb' 0 7 :=
  Row.accepts_iff.trans <| encShW_eq_iff.trans <| by
    simp (disch := decide) [rowShW, fieldRd, fieldRs1, fieldShamtW, BitVec.extractLsb'_and, and_of_eq_allOnes]

theorem rowFp2_accepts_iff {funct5 : BitVec 5} {fmt : BitVec 2} {mk : Reg → Reg → Reg → BitVec 3 → Instr} :
    (rowFp2 funct5 fmt op mk).accepts w = true ↔
      funct5 = w.extractLsb' 12 5 ∧ fmt = w.extractLsb' 7 2 ∧ op = w.extractLsb' 0 7 :=
  Row.accepts_iff.trans <| encFp2_eq_iff.trans <| by
    simp (disch := decide) [rowFp2, fieldRd, fieldRs1, fieldRs2, fieldRm, BitVec.extractLsb'_and, and_of_eq_allOnes]

theorem rowFp1_accepts_iff {funct5 : BitVec 5} {fmt : BitVec 2} {mk : Reg → Reg → BitVec 3 → Instr} :
    (rowFp1 funct5 fmt op mk).accepts w = true ↔
      0#5 = fieldRs2 w ∧ funct5 = w.extractLsb' 12 5 ∧ fmt = w.extractLsb' 7 2 ∧ op = w.extractLsb' 0 7 :=
  Row.accepts_iff.trans <| encFp1_eq_iff.trans <| by
    simp (disch := decide) [rowFp1, fieldRd, fieldRs1, fieldRs2, fieldRm, BitVec.extractLsb'_and, and_of_eq_allOnes]

theorem rowSrc1_accepts_iff {funct10 : BitVec 10} {mk : Reg → Reg → Instr} :
    (rowSrc1 funct10 op mk).accepts w = true ↔
      0#5 = fieldRs2 w ∧ funct10 = w.extractLsb' 7 10 ∧ op = w.extractLsb' 0 7 :=
  Row.accepts_iff.trans <| encSrc1_eq_iff.trans <| by
    simp (disch := decide) [rowSrc1, fieldRd, fieldRs1, fieldRs2, BitVec.extractLsb'_and, and_of_eq_allOnes]

theorem rowSrc2_accepts_iff {funct10 : BitVec 10} {mk : Reg → Reg → Instr} :
    (rowSrc2 funct10 op mk).accepts w = true ↔
      0#5 = fieldRs1 w ∧ funct10 = w.extractLsb' 7 10 ∧ op = w.extractLsb' 0 7 :=
  Row.accepts_iff.trans <| encSrc2_eq_iff.trans <| by
    simp (disch := decide) [rowSrc2, fieldRd, fieldRs1, fieldRs2, BitVec.extractLsb'_and, and_of_eq_allOnes]

theorem rowDest_accepts_iff {fixed : BitVec 20} {mk : Reg → Instr} :
    (rowDest fixed op mk).accepts w = true ↔ fixed = fieldImm20 w ∧ op = w.extractLsb' 0 7 :=
  Row.accepts_iff.trans <| encDest_eq_iff.trans <| by
    simp (disch := decide) [rowDest, fieldRd, fieldImm20, BitVec.extractLsb'_and, and_of_eq_allOnes]

theorem rowNone_accepts_iff {fixed : BitVec 25} {i : Instr} :
    (rowNone fixed op i).accepts w = true ↔ fixed = fieldOff25 w ∧ op = w.extractLsb' 0 7 :=
  Row.accepts_iff.trans <| encNone_eq_iff.trans <| by
    simp (disch := decide) [rowNone, fieldOff25, and_of_eq_allOnes]

end

/-! ### The row of an instruction -/

/-- The row reads one word as the instruction: the word that `encode` gives. -/
def Row.Reads (r : Row) (i : Instr) : Prop := ∀ w, r.accepts w = true ∧ r.build w = i ↔ encode i = w

theorem rowR_reads {funct10 : BitVec 10} {op : BitVec 7} {mk : Reg → Reg → Reg → Instr}
    (h : ∀ rd rs1 rs2, encode (mk rd rs1 rs2) = encR rd rs1 rs2 funct10 op)
    (rd rs1 rs2 : Reg) : (rowR funct10 op mk).Reads (mk rd rs1 rs2) := by
  refine fun w => ⟨fun ⟨ha, hb⟩ => ?_, fun hw => ?_⟩
  · exact hb ▸ (h ..).trans (encR_eq_iff.mpr ⟨rfl, rfl, rfl, rowR_accepts_iff.mp ha⟩)
  · obtain ⟨rfl, rfl, rfl, ha⟩ := encR_eq_iff.mp ((h ..).symm.trans hw)
    exact ⟨rowR_accepts_iff.mpr ha, rfl⟩

theorem rowR4_reads {fmt : BitVec 2} {op : BitVec 7} {mk : Reg → Reg → Reg → Reg → BitVec 3 → Instr}
    (h : ∀ rd rs1 rs2 rs3 rm, encode (mk rd rs1 rs2 rs3 rm) = encR4 rd rs1 rs2 rs3 rm fmt op)
    (rd rs1 rs2 rs3 : Reg) (rm : BitVec 3) : (rowR4 fmt op mk).Reads (mk rd rs1 rs2 rs3 rm) := by
  refine fun w => ⟨fun ⟨ha, hb⟩ => ?_, fun hw => ?_⟩
  · exact hb ▸ (h ..).trans (encR4_eq_iff.mpr ⟨rfl, rfl, rfl, rfl, rfl, rowR4_accepts_iff.mp ha⟩)
  · obtain ⟨rfl, rfl, rfl, rfl, rfl, ha⟩ := encR4_eq_iff.mp ((h ..).symm.trans hw)
    exact ⟨rowR4_accepts_iff.mpr ha, rfl⟩

theorem rowI_reads {funct3 : BitVec 3} {op : BitVec 7} {mk : Reg → Reg → BitVec 12 → Instr}
    (h : ∀ rd rs1 imm12, encode (mk rd rs1 imm12) = encI rd rs1 imm12 funct3 op)
    (rd rs1 : Reg) (imm12 : BitVec 12) : (rowI funct3 op mk).Reads (mk rd rs1 imm12) := by
  refine fun w => ⟨fun ⟨ha, hb⟩ => ?_, fun hw => ?_⟩
  · exact hb ▸ (h ..).trans (encI_eq_iff.mpr ⟨rfl, rfl, rfl, rowI_accepts_iff.mp ha⟩)
  · obtain ⟨rfl, rfl, rfl, ha⟩ := encI_eq_iff.mp ((h ..).symm.trans hw)
    exact ⟨rowI_accepts_iff.mpr ha, rfl⟩

theorem rowB_reads {funct3 : BitVec 3} {op : BitVec 7} {mk : Reg → Reg → BitVec 12 → Instr}
    (h : ∀ rs1 rs2 imm12, encode (mk rs1 rs2 imm12) = encB rs1 rs2 imm12 funct3 op)
    (rs1 rs2 : Reg) (imm12 : BitVec 12) : (rowB funct3 op mk).Reads (mk rs1 rs2 imm12) := by
  refine fun w => ⟨fun ⟨ha, hb⟩ => ?_, fun hw => ?_⟩
  · exact hb ▸ (h ..).trans (encB_eq_iff.mpr ⟨rfl, rfl, rfl, rowB_accepts_iff.mp ha⟩)
  · obtain ⟨rfl, rfl, rfl, ha⟩ := encB_eq_iff.mp ((h ..).symm.trans hw)
    exact ⟨rowB_accepts_iff.mpr ha, rfl⟩

theorem rowL_reads {op : BitVec 7} {mk : Reg → BitVec 20 → Instr}
    (h : ∀ rd imm20, encode (mk rd imm20) = encL rd imm20 op)
    (rd : Reg) (imm20 : BitVec 20) : (rowL op mk).Reads (mk rd imm20) := by
  refine fun w => ⟨fun ⟨ha, hb⟩ => ?_, fun hw => ?_⟩
  · exact hb ▸ (h ..).trans (encL_eq_iff.mpr ⟨rfl, rfl, rowL_accepts_iff.mp ha⟩)
  · obtain ⟨rfl, rfl, ha⟩ := encL_eq_iff.mp ((h ..).symm.trans hw)
    exact ⟨rowL_accepts_iff.mpr ha, rfl⟩

theorem rowJ_reads {op : BitVec 7} {mk : BitVec 25 → Instr}
    (h : ∀ off25, encode (mk off25) = encJ off25 op)
    (off25 : BitVec 25) : (rowJ op mk).Reads (mk off25) := by
  refine fun w => ⟨fun ⟨ha, hb⟩ => ?_, fun hw => ?_⟩
  · exact hb ▸ (h ..).trans (encJ_eq_iff.mpr ⟨rfl, rowJ_accepts_iff.mp ha⟩)
  · obtain ⟨rfl, ha⟩ := encJ_eq_iff.mp ((h ..).symm.trans hw)
    exact ⟨rowJ_accepts_iff.mpr ha, rfl⟩

theorem rowSh_reads {kind : BitVec 6} {funct3 : BitVec 3} {op : BitVec 7} {mk : Reg → Reg → BitVec 6 → Instr}
    (h : ∀ rd rs1 shamt, encode (mk rd rs1 shamt) = encSh rd rs1 kind shamt funct3 op)
    (rd rs1 : Reg) (shamt : BitVec 6) : (rowSh kind funct3 op mk).Reads (mk rd rs1 shamt) := by
  refine fun w => ⟨fun ⟨ha, hb⟩ => ?_, fun hw => ?_⟩
  · exact hb ▸ (h ..).trans (encSh_eq_iff.mpr ⟨rfl, rfl, rfl, rowSh_accepts_iff.mp ha⟩)
  · obtain ⟨rfl, rfl, rfl, ha⟩ := encSh_eq_iff.mp ((h ..).symm.trans hw)
    exact ⟨rowSh_accepts_iff.mpr ha, rfl⟩

theorem rowShW_reads {kind : BitVec 7} {funct3 : BitVec 3} {op : BitVec 7} {mk : Reg → Reg → BitVec 5 → Instr}
    (h : ∀ rd rs1 shamt, encode (mk rd rs1 shamt) = encShW rd rs1 kind shamt funct3 op)
    (rd rs1 : Reg) (shamt : BitVec 5) : (rowShW kind funct3 op mk).Reads (mk rd rs1 shamt) := by
  refine fun w => ⟨fun ⟨ha, hb⟩ => ?_, fun hw => ?_⟩
  · exact hb ▸ (h ..).trans (encShW_eq_iff.mpr ⟨rfl, rfl, rfl, rowShW_accepts_iff.mp ha⟩)
  · obtain ⟨rfl, rfl, rfl, ha⟩ := encShW_eq_iff.mp ((h ..).symm.trans hw)
    exact ⟨rowShW_accepts_iff.mpr ha, rfl⟩

theorem rowFp2_reads {funct5 : BitVec 5} {fmt : BitVec 2} {op : BitVec 7} {mk : Reg → Reg → Reg → BitVec 3 → Instr}
    (h : ∀ rd rs1 rs2 rm, encode (mk rd rs1 rs2 rm) = encFp2 rd rs1 rs2 funct5 rm fmt op)
    (rd rs1 rs2 : Reg) (rm : BitVec 3) : (rowFp2 funct5 fmt op mk).Reads (mk rd rs1 rs2 rm) := by
  refine fun w => ⟨fun ⟨ha, hb⟩ => ?_, fun hw => ?_⟩
  · exact hb ▸ (h ..).trans (encFp2_eq_iff.mpr ⟨rfl, rfl, rfl, rfl, rowFp2_accepts_iff.mp ha⟩)
  · obtain ⟨rfl, rfl, rfl, rfl, ha⟩ := encFp2_eq_iff.mp ((h ..).symm.trans hw)
    exact ⟨rowFp2_accepts_iff.mpr ha, rfl⟩

theorem rowFp1_reads {funct5 : BitVec 5} {fmt : BitVec 2} {op : BitVec 7} {mk : Reg → Reg → BitVec 3 → Instr}
    (h : ∀ rd rs1 rm, encode (mk rd rs1 rm) = encFp1 rd rs1 funct5 rm fmt op)
    (rd rs1 : Reg) (rm : BitVec 3) : (rowFp1 funct5 fmt op mk).Reads (mk rd rs1 rm) := by
  refine fun w => ⟨fun ⟨ha, hb⟩ => ?_, fun hw => ?_⟩
  · exact hb ▸ (h ..).trans (encFp1_eq_iff.mpr ⟨rfl, rfl, rfl, rowFp1_accepts_iff.mp ha⟩)
  · obtain ⟨rfl, rfl, rfl, ha⟩ := encFp1_eq_iff.mp ((h ..).symm.trans hw)
    exact ⟨rowFp1_accepts_iff.mpr ha, rfl⟩

theorem rowSrc1_reads {funct10 : BitVec 10} {op : BitVec 7} {mk : Reg → Reg → Instr}
    (h : ∀ rd rs1, encode (mk rd rs1) = encSrc1 rd rs1 funct10 op)
    (rd rs1 : Reg) : (rowSrc1 funct10 op mk).Reads (mk rd rs1) := by
  refine fun w => ⟨fun ⟨ha, hb⟩ => ?_, fun hw => ?_⟩
  · exact hb ▸ (h ..).trans (encSrc1_eq_iff.mpr ⟨rfl, rfl, rowSrc1_accepts_iff.mp ha⟩)
  · obtain ⟨rfl, rfl, ha⟩ := encSrc1_eq_iff.mp ((h ..).symm.trans hw)
    exact ⟨rowSrc1_accepts_iff.mpr ha, rfl⟩

theorem rowSrc2_reads {funct10 : BitVec 10} {op : BitVec 7} {mk : Reg → Reg → Instr}
    (h : ∀ rd rs2, encode (mk rd rs2) = encSrc2 rd rs2 funct10 op)
    (rd rs2 : Reg) : (rowSrc2 funct10 op mk).Reads (mk rd rs2) := by
  refine fun w => ⟨fun ⟨ha, hb⟩ => ?_, fun hw => ?_⟩
  · exact hb ▸ (h ..).trans (encSrc2_eq_iff.mpr ⟨rfl, rfl, rowSrc2_accepts_iff.mp ha⟩)
  · obtain ⟨rfl, rfl, ha⟩ := encSrc2_eq_iff.mp ((h ..).symm.trans hw)
    exact ⟨rowSrc2_accepts_iff.mpr ha, rfl⟩

theorem rowDest_reads {fixed : BitVec 20} {op : BitVec 7} {mk : Reg → Instr}
    (h : ∀ rd, encode (mk rd) = encDest rd fixed op)
    (rd : Reg) : (rowDest fixed op mk).Reads (mk rd) := by
  refine fun w => ⟨fun ⟨ha, hb⟩ => ?_, fun hw => ?_⟩
  · exact hb ▸ (h ..).trans (encDest_eq_iff.mpr ⟨rfl, rowDest_accepts_iff.mp ha⟩)
  · obtain ⟨rfl, ha⟩ := encDest_eq_iff.mp ((h ..).symm.trans hw)
    exact ⟨rowDest_accepts_iff.mpr ha, rfl⟩

theorem rowNone_reads {fixed : BitVec 25} {op : BitVec 7} {i : Instr} (h : encode i = encNone fixed op) :
    (rowNone fixed op i).Reads i := by
  refine fun _ => ⟨fun ⟨ha, _⟩ => ?_, fun hw => ?_⟩
  · exact h.trans (encNone_eq_iff.mpr (rowNone_accepts_iff.mp ha))
  · exact ⟨rowNone_accepts_iff.mpr (encNone_eq_iff.mp (h.symm.trans hw)), rfl⟩

/-! ### The table stands in the order of the constructors (R110) -/

/-- The tables of the instruction families, which make up `rows`. -/
def tables : List (List Row) :=
  [rowsControl, rowsMemory, rowsAtomic, rowsInteger, rowsInteger32, rowsFpMemory, rowsFpCompute, rowsFpMove, rowsIntToFp,
    rowsFpToInt, rowsFpCompare, rowsMisc, rowsSystem]

theorem tables_flatten : tables.flatten = rows := by
  simp only [tables, rows, List.flatten_cons, List.flatten_nil, List.append_nil, List.append_assoc]

/-- The number of the constructor a row builds is the place of the row. -/
theorem tables_ctorIdx (w : IWord) : tables.flatten.map (fun r => (r.build w).ctorIdx) = List.range 150 := by
  have places : tables.map (List.map fun r => (r.build w).ctorIdx) =
      [.range' 0 12, .range' 12 11, .range' 23 16, .range' 39 28, .range' 67 14, .range' 81 4, .range' 85 22, .range' 107 8,
        .range' 115 11, .range' 126 11, .range' 137 6, .range' 143 2, .range' 145 5] := rfl
  rw [List.map_flatten, places]
  decide

/-- The row that builds an instruction stands at the number of its constructor. -/
theorem getElem?_ctorIdx_of_mem {r : Row} (h : r ∈ rows) (w : IWord) : tables.flatten[(r.build w).ctorIdx]? = some r := by
  obtain ⟨k, hk, rfl⟩ := List.getElem_of_mem (tables_flatten ▸ h)
  have place := List.getElem_of_eq (tables_ctorIdx w) (i := k) (by rwa [List.length_map])
  rw [List.getElem_map, List.getElem_range] at place
  rw [place, List.getElem?_eq_getElem hk]

/-- The row at the number of an instruction's constructor reads one word as the instruction: the one of R94 to R109. -/
theorem Instr.exists_row (i : Instr) : ∃ r, tables.flatten[i.ctorIdx]? = some r ∧ r.Reads i := by
  cases i
  case j | jal => exact ⟨_, rfl, rowJ_reads (by intros; rfl) _⟩
  case beq | bne | blt | bge | bltu | bgeu | sb | sh | sw | sd | fsw | fsd =>
    exact ⟨_, rfl, rowB_reads (by intros; rfl) _ _ _⟩
  case jalrC | jalrR | jalrJ | lb | lh | lw | ld | lbu | lhu | lwu | addi | slti | sltiu | xori | ori | andi | addiw
      | flw | fld | fenceI | fence =>
    exact ⟨_, rfl, rowI_reads (by intros; rfl) _ _ _⟩
  case lui => exact ⟨_, rfl, rowL_reads (by intros; rfl) _ _⟩
  case slli | srli | srai => exact ⟨_, rfl, rowSh_reads (by intros; rfl) _ _ _⟩
  case slliw | srliw | sraiw => exact ⟨_, rfl, rowShW_reads (by intros; rfl) _ _ _⟩
  case amoaddW | amoswapW | amoandW | amoorW | amominW | amomaxW | amominuW | amomaxuW | amoaddD | amoswapD | amoandD
      | amoorD | amominD | amomaxD | amominuD | amomaxuD | add | sub | sll | slt | sltu | xor | srl | sra | or | and
      | mul | mulh | mulhsu | mulhu | div | divu | rem | remu | addw | subw | sllw | srlw | sraw | mulw | divw | divuw
      | remw | remuw | fminS | fmaxS | fminD | fmaxD | fsgnjS | fsgnjnS | fsgnjxS | fsgnjD | fsgnjnD | fsgnjxD
      | feqS | fltS | fleS | feqD | fltD | fleD =>
    exact ⟨_, rfl, rowR_reads (by intros; rfl) _ _ _⟩
  case faddS | fsubS | fmulS | fdivS | faddD | fsubD | fmulD | fdivD =>
    exact ⟨_, rfl, rowFp2_reads (by intros; rfl) _ _ _ _⟩
  case fmaddS | fmsubS | fnmsubS | fnmaddS | fmaddD | fmsubD | fnmsubD | fnmaddD =>
    exact ⟨_, rfl, rowR4_reads (by intros; rfl) _ _ _ _ _⟩
  case fsqrtS | fsqrtD | fcvtSD | fcvtDS | fcvtSL | fcvtSLU | fcvtSW | fcvtSWU | fcvtDL | fcvtDLU | fcvtDW | fcvtDWU
      | fcvtLS | fcvtLUS | fcvtWS | fcvtWUS | fcvtLD | fcvtLUD | fcvtWD | fcvtWUD =>
    exact ⟨_, rfl, rowFp1_reads (by intros; rfl) _ _ _⟩
  case mxtfS | mxtfD | mtfsr => exact ⟨_, rfl, rowSrc1_reads (by intros; rfl) _ _⟩
  case mftxS | mftxD => exact ⟨_, rfl, rowSrc2_reads (by intros; rfl) _ _⟩
  case rdnpc | mffsr | rdcycle | rdtime | rdinstret => exact ⟨_, rfl, rowDest_reads (by intros; rfl) _⟩
  case syscall | brk => exact ⟨_, rfl, rowNone_reads rfl⟩

/-! ### Decoding and encoding -/

/-- What a word that decodes is: a word of the space of the 32-bit instructions (R81), accepted by a row of the table, which
builds the instruction (R91). -/
theorem decode_ok_cases {w : IWord} {i : Instr} (h : decode w = .ok i) :
    w.extractLsb' 0 2 = 0b11#2 ∧ w.extractLsb' 2 3 ≠ 0b111#3 ∧ ∃ r ∈ rows, r.accepts w = true ∧ r.build w = i := by
  unfold decode at h
  split at h
  next => cases h
  next hlow =>
    split at h
    next => cases h
    next hmid =>
      split at h
      next r hr =>
        cases h
        have ha : r.accepts w = true := by simpa using List.find?_some hr
        exact ⟨by simpa using hlow, by simpa using hmid, r, List.mem_of_find?_eq_some hr, ha, rfl⟩
      next => cases h

/-- A word decodes to an instruction just where it is the word of the instruction (R91). -/
theorem decode_eq_ok_iff {w : IWord} {i : Instr} : decode w = .ok i ↔ encode i = w := by
  obtain ⟨r, hr, hreads⟩ := i.exists_row
  rw [← hreads w]
  constructor
  · intro h
    obtain ⟨-, -, r', hr', ha, rfl⟩ := decode_ok_cases h
    obtain rfl : r' = r := Option.some.inj ((getElem?_ctorIdx_of_mem hr' w).symm.trans hr)
    exact ⟨ha, rfl⟩
  · rintro ⟨ha, rfl⟩
    exact decode_of_row (tables_flatten ▸ List.mem_of_getElem? hr) ha

/-- The words of the instructions decode; every other word is an error (R111). -/
theorem decode_error_of_forall_ne {w : IWord} (h : ∀ i, encode i ≠ w) : ∃ e, decode w = .error e := by
  cases hd : decode w with
  | error e => exact ⟨e, rfl⟩
  | ok i => exact absurd (decode_eq_ok_iff.mp hd) (h i)

end Sys2Proof

namespace Sys2Proof.Machine

/-- A fetched word that does not decode traps with the word (R91, R472). -/
theorem stepInstr_of_decode_error {s : State} {w : IWord} {e : DecodeError} (hf : s.fetch = .ok w)
    (hd : decode w = .error e) : stepInstr s = raise (.illegalInstruction w) s := by
  simp only [stepInstr, hf, hd]

/-! ### The statements -/

/-- Settles O1: the word of the instruction is the one its row reads as it. -/
theorem decodeOfEncode : Obligations.DecodeOfEncode := fun _ => decode_eq_ok_iff.mpr rfl

/-- Settles O2: the row that builds an instruction is the instruction's own, and reads no other word as it. -/
theorem encodeOfDecode : Obligations.EncodeOfDecode := fun _ _ => decode_eq_ok_iff.mp

/-- Settles O3: a word that is no encoding does not decode, and one that is lies in the space of the 32-bit instructions. -/
theorem unassignedWordsIllegal : Obligations.UnassignedWordsIllegal := by
  refine ⟨fun s w hrun hfetch hno => ?_, fun w hspace i hi => ?_⟩
  · obtain ⟨e, hd⟩ := decode_error_of_forall_ne hno
    rw [step_of_not_halted hrun, stepInstr_of_decode_error hfetch hd]
  · obtain ⟨hlow, hmid, -⟩ := decode_ok_cases (decode_eq_ok_iff.mpr hi)
    exact hspace.elim (absurd hlow) hmid

/-- Settles O4: each of the words is that of its instruction. -/
theorem decodeOfWrittenWords : Obligations.DecodeOfWrittenWords := by
  simp only [Obligations.DecodeOfWrittenWords, decode_eq_ok_iff]
  decide

end Sys2Proof.Machine
end

section
/-! PROOFS. Instructions that are ill-formed for the variant (spec/30_encoding.md R91 steps 3 and 4, R189, R293): each check
of the instruction word comes before anything else the instruction does. -/

namespace Sys2Proof

/-! ### What makes an instruction ill-formed -/

theorem Instr.variantOk_eq_false_iff {i : Instr} {xl : Xlen} : i.variantOk xl = false ↔ xl = .rv32 ∧ i.rv64Only = true := by
  cases xl <;> simp [Instr.variantOk]

theorem Instr.shamtOk_eq_false_iff {i : Instr} {xl : Xlen} :
    i.shamtOk xl = false ↔ xl = .rv32 ∧ ∃ shamt, i.shamt6 = some shamt ∧ shamt.getLsbD 5 = true := by
  cases xl <;> cases h : i.shamt6 <;> simp [Instr.shamtOk, h]

theorem Instr.rmOk_eq_false_iff {i : Instr} : i.rmOk = false ↔ ∃ rm, i.rmField = some rm ∧ rmFieldValid rm = false := by
  cases h : i.rmField <;> simp [Instr.rmOk, h]

theorem Instr.wellFormed_eq_false_iff {i : Instr} {xl : Xlen} :
    i.wellFormed xl = false ↔ i.variantOk xl = false ∨ i.shamtOk xl = false ∨ i.variantOk xl = true ∧ i.rmOk = false := by
  cases hv : i.variantOk xl <;> cases hs : i.shamtOk xl <;> simp [Instr.wellFormed, hv, hs]

end Sys2Proof

namespace Sys2Proof.Machine

/-! ### Checks of the instruction word (R91 steps 3 and 4) -/

/-- An RV64-only instruction checks the variant first (R91 step 3). -/
theorem exec_of_rv64Only {i : Instr} (h : i.rv64Only = true) (s : State) : ∃ k, exec i s = rv64Only i s k := by
  cases i
  case ld | lwu | sd | amoaddD | amoswapD | amoandD | amoorD | amominD | amomaxD | amominuD | amomaxuD | addiw | slliw
      | srliw | sraiw | addw | subw | sllw | srlw | sraw | mulw | divw | divuw | remw | remuw | fcvtSL | fcvtSLU | fcvtDL
      | fcvtDLU | mxtfD | fcvtLS | fcvtLUS | fcvtLD | fcvtLUD | mftxD =>
    exact ⟨_, rfl⟩
  all_goals cases h

/-- A shift by a 6-bit constant checks its amount first (R189). -/
theorem exec_of_shamt6 {i : Instr} {shamt : BitVec 6} (h : i.shamt6 = some shamt) (s : State) :
    ∃ k, exec i s = checkShamt i shamt s k := by
  cases i
  case slli | srli | srai => cases h; exact ⟨_, rfl⟩
  all_goals cases h

/-- An instruction that the variant provides and that has an `rm` field checks the field before it does anything (R293). -/
theorem exec_of_rmField {i : Instr} {rm : BitVec 3} {s : State} (h : i.rmField = some rm)
    (hv : i.variantOk s.cfg.xlen = true) : ∃ k, exec i s = withRM i rm s k := by
  have rv64 (h64 : i.rv64Only = true) : s.cfg.xlen = .rv64 := by
    cases hx : s.cfg.xlen with
    | rv32 => exact absurd (Instr.variantOk_eq_false_iff.mpr ⟨hx, h64⟩) (by simp [hv])
    | rv64 => rfl
  cases i
  case faddS | fsubS | fmulS | fdivS | fsqrtS | faddD | fsubD | fmulD | fdivD | fsqrtD | fmaddS | fmsubS | fnmsubS
      | fnmaddS | fmaddD | fmsubD | fnmsubD | fnmaddD | fcvtSD | fcvtDS | fcvtSW | fcvtSWU | fcvtDW | fcvtDWU | fcvtWS
      | fcvtWUS | fcvtWD | fcvtWUD =>
    cases h
    exact ⟨_, rfl⟩
  case fcvtSL | fcvtSLU | fcvtDL | fcvtDLU | fcvtLS | fcvtLUS | fcvtLD | fcvtLUD =>
    cases h
    exact ⟨_, rv64Only_rv64 (rv64 rfl)⟩
  all_goals cases h

theorem checkShamt_of_out_of_range {i : Instr} {shamt : BitVec 6} {s : State} {k : Result} (hx : s.cfg.xlen = .rv32)
    (h : shamt.getLsbD 5 = true) : checkShamt i shamt s k = raise (.illegalInstruction (encode i)) s :=
  if_pos ⟨hx, h⟩

/-- An invalid static rounding mode selects no mode (R292, R293). -/
theorem State.effRM_of_not_valid {rm : BitVec 3} (h : rmFieldValid rm = false) (s : State) : s.effRM rm = none := by
  have hrm : rm = 0b101#3 ∨ rm = 0b110#3 := by
    simpa [rmFieldValid, or_iff_not_imp_left] using h
  rcases hrm with rfl | rfl <;> rfl

/-- Settles O17: the check that the instruction fails is the first thing it does. -/
theorem illFormedIllegal : Obligations.IllFormedIllegal := by
  intro i s h
  rcases Instr.wellFormed_eq_false_iff.mp h with hvariant | hshamt | ⟨hvariant, hrm⟩
  · obtain ⟨hx, h64⟩ := Instr.variantOk_eq_false_iff.mp hvariant
    obtain ⟨k, he⟩ := exec_of_rv64Only h64 s
    rw [he, rv64Only_rv32 hx]
  · obtain ⟨hx, shamt, hfield, hbit⟩ := Instr.shamtOk_eq_false_iff.mp hshamt
    obtain ⟨k, he⟩ := exec_of_shamt6 hfield s
    rw [he, checkShamt_of_out_of_range hx hbit]
  · obtain ⟨rm, hfield, hinvalid⟩ := Instr.rmOk_eq_false_iff.mp hrm
    obtain ⟨k, he⟩ := exec_of_rmField hfield hvariant
    rw [he, withRM_none (State.effRM_of_not_valid hinvalid s)]

end Sys2Proof.Machine
end

section
/-! PROOFS. Control transfer (spec/44_control_transfer.md): sums and comparisons of values of `XPRLEN` bits as those of
numbers, the targets, and what a transfer writes. -/

namespace Sys2Proof.Machine

/-! ### Sums and comparisons of values of `XPRLEN` bits -/

/-- A value and a sign-extended one are added as integers, modulo `2^XPRLEN` (R12, R28). -/
theorem trunc_add_sext_toNat {w : Nat} (xl : Xlen) (a : XWord) (v : BitVec w) (hw : w ≤ 64) :
    ((trunc xl (a + sext xl v)).toNat : Int) = ((trunc xl a).toNat + v.toInt) % (2 ^ xl.bits : Nat) := by
  have hext : (v.signExtend 64).toInt = v.toInt := BitVec.toInt_signExtend_of_le hw
  rw [BitVec.toInt_eq_toNat_cond] at hext
  simp only [sext, trunc_toNat, BitVec.toNat_add, ← hext]
  cases xl <;> simp only [Xlen.bits] <;> split <;> omega

theorem pcPlus4_toNat (s : State) : s.pcPlus4.toNat = ((trunc s.cfg.xlen s.pc).toNat + 4) % s.modulus := by
  simp only [State.pcPlus4, State.modulus, trunc_toNat, BitVec.toNat_add]
  cases s.cfg.xlen <;> simp only [Xlen.bits] <;> rw [show (4 : XWord).toNat = 4 from rfl] <;> omega

theorem State.unsigned_readX (s : State) (r : Reg) : unsigned s.cfg.xlen (s.readX r) = s.ux r := by
  rw [unsigned, s.trunc_readX, State.ux]

/-- `signed` is the value by the top bit (R11). -/
theorem signed_of_lt {xl : Xlen} {v : XWord} (h : v.toNat < 2 ^ xl.bits) :
    signed xl v = if 2 * v.toNat < 2 ^ xl.bits then (v.toNat : Int) else v.toNat - (2 ^ xl.bits : Nat) := by
  cases xl with
  | rv64 => exact BitVec.toInt_eq_toNat_cond v
  | rv32 =>
    have hlow : (v.setWidth 32).toNat = v.toNat := Nat.mod_eq_of_lt h
    rw [signed, BitVec.toInt_eq_toNat_cond, hlow]
    rfl

theorem State.signed_readX (s : State) (r : Reg) : signed s.cfg.xlen (s.readX r) = s.sx r :=
  signed_of_lt (s.readX_lt r)

theorem State.readX_eq_iff (s : State) (r r' : Reg) : s.readX r = s.readX r' ↔ s.ux r = s.ux r' :=
  BitVec.toNat_inj.symm

/-! ### Control transfers that complete -/

theorem writesNothing_retireTo (s : State) (target : XWord) : WritesNothing s (s.retireTo target) where
  kept := by constructor <;> rfl
  mem := by constructor <;> rfl
  x := rfl
  f := rfl
  fsr := rfl

/-- A jump with a link completes with `pc + 4` in `x[rd]` (R262, R263). -/
theorem writesX_jumpLink (s : State) (rd : Reg) (target : XWord) :
    WritesX rd s.pcPlus4 s ((s.writeX rd s.pcPlus4).retireTo target) where
  kept := by constructor <;> simp
  mem := by constructor <;> simp
  x :=
    have h : NewX rd s.pcPlus4 s (s.writeX rd s.pcPlus4).retire := newX_writeX_retire rfl rfl (trunc_trunc _ _)
    ⟨h.others, h.dest, h.zero⟩
  f := by simp
  fsr := by simp

/-- A branch goes to its target where its comparison holds, else to `pc + 4` (R268). -/
theorem completesJump_of_branch {i : Instr} {taken : Bool} {p : Prop} [Decidable p] {imm12 : BitVec 12} {s : State}
    (he : exec i s = branch taken imm12 s) (hp : taken = true ↔ p) :
    CompletesJump i (if p then s.branchTarget imm12 else s.pcPlus4) s :=
  ⟨_, he, writesNothing_retireTo _ _, by simp only [State.retireTo_pc, hp]⟩

theorem completesJump_of_branch_not {i : Instr} {taken : Bool} {p : Prop} [Decidable p] {imm12 : BitVec 12} {s : State}
    (he : exec i s = branch taken imm12 s) (hp : taken = true ↔ ¬p) :
    CompletesJump i (if p then s.pcPlus4 else s.branchTarget imm12) s := by
  simpa only [ite_not] using completesJump_of_branch he hp

/-! ### Targets -/

/-- The target of J and JAL (R88, R261). -/
theorem State.jumpTarget_toNat (s : State) (off25 : BitVec 25) :
    ((s.jumpTarget off25).toNat : Int) = ((trunc s.cfg.xlen s.pc).toNat + 2 * off25.toInt) % s.modulus := by
  rw [State.jumpTarget, jumpOffset, trunc_add_sext_toNat _ _ _ (by decide), BitVec.toInt_append_zero]
  rfl

/-- The target of a taken branch (R86, R268). -/
theorem State.branchTarget_toNat (s : State) (imm12 : BitVec 12) :
    ((s.branchTarget imm12).toNat : Int) = ((trunc s.cfg.xlen s.pc).toNat + 2 * imm12.toInt) % s.modulus := by
  rw [State.branchTarget, branchOffset, trunc_add_sext_toNat _ _ _ (by decide), BitVec.toInt_append_zero]
  rfl

/-- An effective address, and the target of JALR (R66, R263). -/
theorem State.address_toNat (s : State) (rs1 : Reg) (imm12 : BitVec 12) :
    ((s.address rs1 imm12).toNat : Int) = (s.ux rs1 + imm12.toInt) % s.modulus := by
  rw [State.address, immI, trunc_add_sext_toNat _ _ _ (by decide), s.trunc_readX]
  rfl

/-! ### The statements -/

/-- Settles O20: J moves the pc alone, and JAL links to `x1` besides. -/
theorem jumpsGoToOffset : Obligations.JumpsGoToOffset := fun off s =>
  ⟨s.jumpTarget off, s.jumpTarget_toNat off, ⟨_, rfl, writesNothing_retireTo _ _, rfl⟩,
    _, rfl, writesX_jumpLink _ _ _, rfl⟩

/-- Settles O21: the three forms of JALR have one meaning. -/
theorem jalrAndRdnpc : Obligations.JalrAndRdnpc := fun _ rs1 imm s =>
  ⟨⟨_, rfl, writesX_jumpLink _ _ _, s.address_toNat rs1 imm, rfl, rfl⟩,
    completesX_of_putX rfl (trunc_trunc _ _) (pcPlus4_toNat s)⟩

/-- Settles O22: the comparison of each branch, as one of the numbers in its operands. -/
theorem branchesCompare : Obligations.BranchesCompare := by
  intro rs1 rs2 imm s
  refine ⟨s.branchTarget imm, s.branchTarget_toNat imm, ?_, ?_, ?_, ?_, ?_, ?_⟩
  · exact completesJump_of_branch rfl (beq_iff_eq.trans (s.readX_eq_iff rs1 rs2))
  · exact completesJump_of_branch_not rfl (bne_iff_ne.trans (s.readX_eq_iff rs1 rs2).not)
  · exact completesJump_of_branch rfl (by simp only [decide_eq_true_iff, s.signed_readX])
  · exact completesJump_of_branch_not rfl (by simp only [decide_eq_true_iff, s.signed_readX, not_lt, ge_iff_le])
  · exact completesJump_of_branch rfl (by simp only [decide_eq_true_iff, s.unsigned_readX])
  · exact completesJump_of_branch_not rfl (by simp only [decide_eq_true_iff, s.unsigned_readX, not_lt, ge_iff_le])

end Sys2Proof.Machine
end

section
/-! PROOFS. Floating-point loads and stores, and loads after stores (spec/40_load_store.md): a value read back is, in its low
bytes, the value stored, whichever instruction stored it and whichever reads it. -/

namespace Sys2Proof.Machine

/-! ### Results in an f register -/

theorem newF_writeF_retire (s : State) (rd : Reg) (v : FReg) : NewF rd v s (s.writeF rd v).retire where
  others r hr := (State.readF_writeF s rd r v).trans (if_neg hr)
  dest := (State.readF_writeF s rd rd v).trans (if_pos rfl)

theorem writesF_putF (s : State) (rd : Reg) (v : FReg) : WritesF rd v s (s.writeF rd v).retire where
  kept := by constructor <;> rfl
  mem := by constructor <;> rfl
  x := rfl
  f := newF_writeF_retire s rd v
  fsr := rfl

/-- An instruction whose one effect is `f[rd]` completes with that value (R143). -/
theorem completesF_of_putF {i : Instr} {rd : Reg} {v : FReg} {s : State} (he : exec i s = putF rd v s) :
    CompletesF i rd v s :=
  ⟨_, he, writesF_putF s rd v, rfl⟩

theorem readF_of_putF {rd : Reg} {w : FReg} {s t : State} (h : putF rd w s = .next t) : t.readF rd = w := by
  rw [putF_cases h]
  exact (newF_writeF_retire s rd w).dest

theorem readX_of_putX {rd : Reg} {w : XWord} {s t : State} (hw : trunc s.cfg.xlen w = w) (h : putX rd w s = .next t) :
    t.readX rd = if rd = 0 then 0 else w := by
  rw [putX_cases h]
  have hnew : NewX rd w s (s.writeX rd w).retire := newX_writeX_retire rfl rfl hw
  split
  next h0 => rw [h0, State.readX_zero]
  next h0 => exact hnew.dest h0

/-! ### The views of an f register (R32) -/

theorem State.readS_of_single {s : State} {r : Reg} {w : BitVec 32} (slot : Nat) (h : s.readF r = .s w) :
    s.readS slot r = w := by
  simp only [State.readS, h]

theorem State.readD_of_double {s : State} {r : Reg} {w : BitVec 64} (slot : Nat) (h : s.readF r = .d w) :
    s.readD slot r = w := by
  simp only [State.readD, h]

/-! ### What the bytes in memory say of a value -/

/-- The bytes of an access fix the low bits of a value that holds them. -/
theorem State.HoldsBytes.low_bits_eq {s : State} {a : XWord} {n : Nat} {v w : BitVec 64} (hv : s.HoldsBytes a n v)
    (hw : s.HoldsBytes a n w) : v.setWidth (8 * n) = w.setWidth (8 * n) := by
  ext j hj
  have hbyte : v.extractLsb' (8 * (j / 8)) 8 = w.extractLsb' (8 * (j / 8)) 8 :=
    (hv _ (by omega)).trans (hw _ (by omega)).symm
  have hbit := congrArg (BitVec.getLsbD · (j % 8)) hbyte
  simpa [BitVec.getLsbD_extractLsb', Nat.mod_lt, Nat.div_add_mod] using hbit

theorem State.HoldsBytes.setWidth_setWidth {s : State} {a : XWord} {n : Nat} {v : BitVec 64} (h : s.HoldsBytes a n v)
    (hn : n ≤ 8) : s.HoldsBytes a n ((v.setWidth (8 * n)).setWidth 64) := by
  refine h.of_low_bits fun j hj => ?_
  simp [hj, show j < 64 by omega]

theorem State.byteAddr_mem_span (s : State) (a : XWord) {n k : Nat} (hk : k < n) : s.byteAddr a n k ∈ s.span a n :=
  s.span_getElem_place a hk ▸ List.getElem_mem _

theorem State.byteAddr_cfg {s v : State} (h : v.cfg = s.cfg) (a : XWord) (n k : Nat) :
    v.byteAddr a n k = s.byteAddr a n k := by
  simp only [State.byteAddr, State.modulus, h]

/-! ### Accesses that complete without a trap -/

section

variable {i : Instr} {s t : State} {a : XWord} {n : Nat}

/-- An RV64-only instruction that completes without a trap runs on RV64 (R91 step 3). -/
theorem xlen_eq_rv64_of_trapFree (h64 : i.rv64Only = true) (h : exec i s = .next t) (hf : s.TrapFree t) :
    s.cfg.xlen = .rv64 := by
  obtain ⟨k, he⟩ := exec_of_rv64Only h64 s
  rcases rv64Only_cases (he ▸ h) with ⟨-, ht⟩ | ⟨hx, -⟩
  · exact absurd hf (raise_not_trapFree ht)
  · exact hx

/-- After a store without a trap, and as long as its bytes are not written, they are those of the value stored (R53, R67). -/
theorem holdsBytes_of_store {v : State} {x : BitVec 64} (he : exec i s = storeDone a n x s) (hn : n ≤ 8)
    (h : exec i s = .next t) (hf : s.TrapFree t) (hc : v.cfg = s.cfg)
    (hkept : ∀ b ∈ s.span a n, Memory.read v.mem b = Memory.read t.mem b) : v.HoldsBytes a n x := by
  intro k hk
  rw [State.byteAddr_cfg hc, hkept _ (s.byteAddr_mem_span a hk)]
  rcases storeDone_cases (he ▸ h) with ⟨b, -, ht⟩ | ⟨-, rfl⟩
  · exact absurd hf (raise_not_trapFree ht)
  · exact ((newBytes_memWrite s a x hn).bytes k hk).symm

/-- A load without a trap goes on with the low bytes of any value whose bytes are in memory (R52). -/
theorem next_of_load {x : BitVec 64} {k : BitVec (8 * n) → Result}
    (he : exec i s = loadThen a n s fun w => k (w.setWidth (8 * n))) (hn : n ≤ 8) (hx : s.HoldsBytes a n x)
    (hf : s.TrapFree t) (h : exec i s = .next t) : k (x.setWidth (8 * n)) = .next t := by
  rcases loadThen_cases (he ▸ h) with ⟨b, -, ht⟩ | ⟨-, hk⟩
  · exact absurd hf (raise_not_trapFree ht)
  · rwa [(s.holdsBytes_memRead a hn).low_bits_eq hx] at hk

end

/-! ### The loads, of a value whose bytes are in memory -/

section

variable {i : Instr} {rd rs1 : Reg} {imm12 : BitVec 12} {s t : State} {a : XWord} {n : Nat} {x : BitVec 64}

theorem readX_of_loadSigned
    (he : exec i s = loadThen a n s fun w => putX rd (sext s.cfg.xlen (w.setWidth (8 * n))) s) (hn : n ≤ 8)
    (hx : s.HoldsBytes a n x) (hf : s.TrapFree t) (h : exec i s = .next t) :
    t.readX rd = if rd = 0 then 0 else sext s.cfg.xlen (x.setWidth (8 * n)) :=
  readX_of_putX (trunc_trunc _ _) (next_of_load (k := fun w => putX rd (sext s.cfg.xlen w) s) he hn hx hf h)

theorem readX_of_loadUnsigned
    (he : exec i s = loadThen a n s fun w => putX rd (zext s.cfg.xlen (w.setWidth (8 * n))) s) (hn : n ≤ 8)
    (hx : s.HoldsBytes a n x) (hf : s.TrapFree t) (h : exec i s = .next t) :
    t.readX rd = if rd = 0 then 0 else zext s.cfg.xlen (x.setWidth (8 * n)) :=
  readX_of_putX (trunc_trunc _ _) (next_of_load (k := fun w => putX rd (zext s.cfg.xlen w) s) he hn hx hf h)

theorem readX_of_lwu (hx : s.HoldsBytes (s.address rs1 imm12) 4 x) (hf : s.TrapFree t)
    (h : exec (.lwu rd rs1 imm12) s = .next t) :
    t.readX rd = if rd = 0 then 0 else zext s.cfg.xlen (x.setWidth 32) :=
  readX_of_loadUnsigned (n := 4) (exec_lwu (xlen_eq_rv64_of_trapFree rfl h hf)) (by decide) hx hf h

theorem readX_of_ld (hx : s.HoldsBytes (s.address rs1 imm12) 8 x) (hf : s.TrapFree t)
    (h : exec (.ld rd rs1 imm12) s = .next t) : t.readX rd = if rd = 0 then 0 else x := by
  have h64 := xlen_eq_rv64_of_trapFree rfl h hf
  have hread := readX_of_loadUnsigned (n := 8) (exec_ld h64) (by decide) hx hf h
  simpa [h64, zext] using hread

theorem readF_of_flw (hx : s.HoldsBytes (s.address rs1 imm12) 4 x) (hf : s.TrapFree t)
    (h : exec (.flw rd rs1 imm12) s = .next t) : t.readF rd = .s (x.setWidth 32) :=
  readF_of_putF (next_of_load (n := 4) (k := fun w => putF rd (.s w) s) exec_flw (by decide) hx hf h)

theorem readF_of_fld (hx : s.HoldsBytes (s.address rs1 imm12) 8 x) (hf : s.TrapFree t)
    (h : exec (.fld rd rs1 imm12) s = .next t) : t.readF rd = .d x := by
  have he : exec (.fld rd rs1 imm12) s =
      loadThen (s.address rs1 imm12) 8 s fun w => putF rd (.d (w.setWidth 64)) s := by
    simpa using exec_fld
  simpa using readF_of_putF (next_of_load (n := 8) (k := fun w => putF rd (.d w) s) he (by decide) hx hf h)

/-- The loads of four bytes, of either register file, give back the low word of the value in memory. -/
theorem loads_of_word {w : BitVec 32} (hw : x.setWidth 32 = w) (hx : s.HoldsBytes (s.address rs1 imm12) 4 x)
    (hf : s.TrapFree t) :
    (exec (.lw rd rs1 imm12) s = .next t → t.readX rd = if rd = 0 then 0 else sext s.cfg.xlen w) ∧
    (exec (.lwu rd rs1 imm12) s = .next t → t.readX rd = if rd = 0 then 0 else zext s.cfg.xlen w) ∧
    (exec (.flw rd rs1 imm12) s = .next t → t.readF rd = .s w) := by
  subst hw
  exact ⟨readX_of_loadSigned (n := 4) exec_lw (by decide) hx hf, readX_of_lwu hx hf, readF_of_flw hx hf⟩

end

/-! ### The statements -/

/-- Settles O33: both loads write what they read, which is the bytes in memory. -/
theorem fpLoadResults : Obligations.FpLoadResults := by
  rintro rd rs1 imm s a rfl
  refine ⟨fun hp => ⟨_, ?_, completesF_of_putF (exec_flw.trans (loadThen_of_permitted hp))⟩,
    fun hp => ⟨_, ?_, completesF_of_putF (exec_fld.trans (loadThen_of_permitted hp))⟩⟩
  · exact (s.holdsBytes_memRead _ (by decide)).setWidth_setWidth (by decide)
  · exact s.holdsBytes_memRead _ (by decide)

/-- Settles O34: both stores write the view of their own precision, which is the pattern of a register that holds it. -/
theorem fpStoreResults : Obligations.FpStoreResults := by
  rintro rs1 rs2 imm s a rfl
  refine ⟨fun hp => ?_, fun hp => ?_⟩
  · have hstore := completesStore_of_storeDone (exec_fsw (rs2 := rs2)) hp (by decide)
    exact ⟨⟨_, hstore⟩, fun v hv => State.readS_of_single 2 hv ▸ hstore⟩
  · have hstore := completesStore_of_storeDone (exec_fsd (rs2 := rs2)) hp (by decide)
    exact ⟨⟨_, hstore⟩, fun v hv => State.readD_of_double 2 hv ▸ hstore⟩

/-- Settles O36: each store leaves the bytes of its value in memory, and each load of the width reads them as that value. -/
theorem storeThenLoad : Obligations.StoreThenLoad := by
  intro rd rb rs1 rs2 imm imm' s t v u hc ha hst hvu
  rw [← hc, ← ha]
  have stored {i : Instr} {n : Nat} {x : BitVec 64} (hn : n ≤ 8) (he : exec i s = storeDone (s.address rs1 imm) n x s)
      (hkept : ∀ b ∈ s.span (v.address rb imm') n, Memory.read v.mem b = Memory.read t.mem b) (h : exec i s = .next t) :
      v.HoldsBytes (v.address rb imm') n x :=
    holdsBytes_of_store (ha ▸ he) hn h hst hc hkept
  refine ⟨fun _ => State.readS_of_single 2, fun _ => State.readD_of_double 2, fun hkept h => ?_, fun hkept h => ?_,
    fun hkept h => ?_, fun hkept h => ?_, fun hkept h => ?_, fun hkept h => ?_⟩
  · have hx := stored (by decide) exec_sb hkept h
    exact ⟨readX_of_loadSigned (n := 1) exec_lb (by decide) hx hvu,
      readX_of_loadUnsigned (n := 1) exec_lbu (by decide) hx hvu⟩
  · have hx := stored (by decide) exec_sh hkept h
    exact ⟨readX_of_loadSigned (n := 2) exec_lh (by decide) hx hvu,
      readX_of_loadUnsigned (n := 2) exec_lhu (by decide) hx hvu⟩
  · exact loads_of_word rfl (stored (by decide) exec_sw hkept h) hvu
  · have hx := stored (by decide) (exec_sd (xlen_eq_rv64_of_trapFree rfl h hst)) hkept h
    exact ⟨readX_of_ld hx hvu, readF_of_fld hx hvu⟩
  · have hx := stored (by decide) exec_fsw hkept h
    have hlow : ((s.readS 2 rs2).setWidth 64).setWidth 32 = s.readS 2 rs2 := by simp
    obtain ⟨hlw, hlwu, hflw⟩ := loads_of_word hlow hx hvu
    exact ⟨hflw, hlw, hlwu⟩
  · have hx := stored (by decide) exec_fsd hkept h
    exact ⟨readF_of_fld hx hvu, readX_of_ld hx hvu⟩

end Sys2Proof.Machine
end

section
/-! PROOFS. Atomic memory operations (spec/41_amo.md): an aligned AMO whose bytes may be read and written completes with its
operator of the old value in memory and the old value in `x[rd]`. -/

namespace Sys2Proof.Machine

/-! ### Words and their order -/

/-- The low 32 bits of a sign-extended word are the word. -/
theorem sext_setWidth (xl : Xlen) (w : BitVec 32) : (sext xl w).setWidth 32 = w := by
  have hbits := xl.thirtyTwo_le_bits
  ext j hj
  simp [BitVec.getElem_setWidth, sext_getLsbD, hj, show j < xl.bits by omega]

/-- Of two values with equal keys either is the lesser: whether the test is strict does not matter. -/
theorem ite_lt_eq_ite_le {α β : Type} [LinearOrder β] {key : α → β} (hkey : Function.Injective key) (x y : α) :
    (if key x < key y then x else y) = if key x ≤ key y then x else y := by
  rcases lt_trichotomy (key x) (key y) with h | h | h
  · rw [if_pos h, if_pos h.le]
  · rw [hkey h, ite_self, ite_self]
  · rw [if_neg h.asymm, if_neg h.not_ge]

/-- The greater of two values, by the test that fails for it. -/
theorem ite_gt_eq_ite_le {α β : Type} [LinearOrder β] (key : α → β) (x y : α) :
    (if key x > key y then x else y) = if key x ≤ key y then y else x := by
  simp only [gt_iff_lt, ← not_le, ite_not]

theorem toInt_injective {w : Nat} : Function.Injective (BitVec.toInt : BitVec w → Int) := fun _ _ => BitVec.toInt_inj.mp

/-! ### The AMOs, by the operators they call -/

section

variable {rd rs1 rs2 : Reg} {s : State}

theorem exec_amoaddW : exec (.amoaddW rd rs1 rs2) s = amoW (fun t v => t + v) rd rs1 rs2 s := rfl

theorem exec_amoswapW : exec (.amoswapW rd rs1 rs2) s = amoW (fun _ v => v) rd rs1 rs2 s := rfl

theorem exec_amoandW : exec (.amoandW rd rs1 rs2) s = amoW (fun t v => t &&& v) rd rs1 rs2 s := rfl

theorem exec_amoorW : exec (.amoorW rd rs1 rs2) s = amoW (fun t v => t ||| v) rd rs1 rs2 s := rfl

theorem exec_amominW : exec (.amominW rd rs1 rs2) s =
    amoW (fun t v => if t.toInt < v.toInt then t else v) rd rs1 rs2 s := rfl

theorem exec_amomaxW : exec (.amomaxW rd rs1 rs2) s =
    amoW (fun t v => if t.toInt > v.toInt then t else v) rd rs1 rs2 s := rfl

theorem exec_amominuW : exec (.amominuW rd rs1 rs2) s =
    amoW (fun t v => if t.toNat < v.toNat then t else v) rd rs1 rs2 s := rfl

theorem exec_amomaxuW : exec (.amomaxuW rd rs1 rs2) s =
    amoW (fun t v => if t.toNat > v.toNat then t else v) rd rs1 rs2 s := rfl

theorem exec_amoaddD : exec (.amoaddD rd rs1 rs2) s = amoD (.amoaddD rd rs1 rs2) (fun t v => t + v) rd rs1 rs2 s := rfl

theorem exec_amoswapD : exec (.amoswapD rd rs1 rs2) s = amoD (.amoswapD rd rs1 rs2) (fun _ v => v) rd rs1 rs2 s := rfl

theorem exec_amoandD : exec (.amoandD rd rs1 rs2) s = amoD (.amoandD rd rs1 rs2) (fun t v => t &&& v) rd rs1 rs2 s := rfl

theorem exec_amoorD : exec (.amoorD rd rs1 rs2) s = amoD (.amoorD rd rs1 rs2) (fun t v => t ||| v) rd rs1 rs2 s := rfl

theorem exec_amominD : exec (.amominD rd rs1 rs2) s =
    amoD (.amominD rd rs1 rs2) (fun t v => if t.toInt < v.toInt then t else v) rd rs1 rs2 s := rfl

theorem exec_amomaxD : exec (.amomaxD rd rs1 rs2) s =
    amoD (.amomaxD rd rs1 rs2) (fun t v => if t.toInt > v.toInt then t else v) rd rs1 rs2 s := rfl

theorem exec_amominuD : exec (.amominuD rd rs1 rs2) s =
    amoD (.amominuD rd rs1 rs2) (fun t v => if t.toNat < v.toNat then t else v) rd rs1 rs2 s := rfl

theorem exec_amomaxuD : exec (.amomaxuD rd rs1 rs2) s =
    amoD (.amomaxuD rd rs1 rs2) (fun t v => if t.toNat > v.toNat then t else v) rd rs1 rs2 s := rfl

end

/-! ### AMOs that complete -/

section

variable {i : Instr} {rd rs1 rs2 : Reg} {n : Nat} {s : State}

theorem amo_of_permitted {op : BitVec 64 → BitVec 64} {ext : BitVec 64 → XWord} (ha : s.ux rs1 % n = 0)
    (hp : s.Permitted [.load, .store] (s.readX rs1) n) :
    amo rd rs1 n op ext s = .next ((s.memWrite (s.readX rs1) n (op (s.memRead (s.readX rs1) n))).writeX rd
      (ext (s.memRead (s.readX rs1) n))).retire := by
  have ha : ¬ (s.readX rs1).toNat % n ≠ 0 := not_not.mpr ha
  simp only [amo, if_neg ha, (s.denied_eq_none _ _ _).mpr hp]

/-- An aligned AMO, where the bytes may be read and written, completes with the extended old value in `x[rd]` and the
operator of the old value in memory (R151). -/
theorem completesAmo_of_amo {op : BitVec 64 → BitVec 64} {ext : BitVec 64 → XWord} (he : exec i s = amo rd rs1 n op ext s)
    (ha : s.ux rs1 % n = 0) (hp : s.Permitted [.load, .store] (s.readX rs1) n) (hn : n ≤ 8)
    (hext : ∀ v, trunc s.cfg.xlen (ext v) = ext v) :
    CompletesAmo i rd (s.readX rs1) n (ext (s.memRead (s.readX rs1) n)) (op (s.memRead (s.readX rs1) n)) s := by
  refine ⟨_, he.trans (amo_of_permitted ha hp), ?_, newX_writeX_retire (by simp) (by simp) (hext _), ?_, by simp, by simp,
    by simp [State.pcPlus4]⟩
  · constructor <;> simp
  · have hnew := newBytes_memWrite s (s.readX rs1) (op (s.memRead (s.readX rs1) n)) hn
    exact ⟨by simpa using hnew.bytes, by simpa using hnew.others⟩

/-- The old word of a 32-bit AMO, sign-extended (R151). -/
def State.oldWord (s : State) (a : XWord) : XWord := sext s.cfg.xlen ((s.memRead a 4).setWidth 32)

theorem State.holdsBytes_oldWord (s : State) (a : XWord) : s.HoldsBytes a 4 (s.oldWord a) :=
  (s.holdsBytes_memRead a (by decide)).sext s.cfg.xlen.thirtyTwo_le_bits

theorem State.signExtendedFrom_oldWord (s : State) (a : XWord) : SignExtendedFrom s.cfg.xlen 32 (s.oldWord a) :=
  signExtendedFrom_sext _ _ (by decide) s.cfg.xlen.thirtyTwo_le_bits

theorem completesAmo_of_amoW {op : BitVec 32 → BitVec 32 → BitVec 32} (ha : s.ux rs1 % 4 = 0)
    (hp : s.Permitted [.load, .store] (s.readX rs1) 4) (he : exec i s = amoW op rd rs1 rs2 s) {new : BitVec 32}
    (hnew : op ((s.oldWord (s.readX rs1)).setWidth 32) ((s.readX rs2).setWidth 32) = new) :
    CompletesAmo i rd (s.readX rs1) 4 (s.oldWord (s.readX rs1)) (new.setWidth 64) s := by
  rw [State.oldWord, sext_setWidth] at hnew
  subst hnew
  exact completesAmo_of_amo he ha hp (by decide) fun _ => trunc_trunc _ _

theorem completesAmo_of_amoD {op : BitVec 64 → BitVec 64 → BitVec 64} (hx : s.cfg.xlen = .rv64) (ha : s.ux rs1 % 8 = 0)
    (hp : s.Permitted [.load, .store] (s.readX rs1) 8) (he : exec i s = amoD i op rd rs1 rs2 s) {new : BitVec 64}
    (hnew : op (s.memRead (s.readX rs1) 8) (s.readX rs2) = new) :
    CompletesAmo i rd (s.readX rs1) 8 (s.memRead (s.readX rs1) 8) new s := by
  subst hnew
  exact completesAmo_of_amo (he.trans (rv64Only_rv64 hx)) ha hp (by decide) fun _ => by rw [hx, trunc_rv64]

end

/-! ### The statements -/

/-- Settles O37: each AMO.W is the template with its operator on the word in memory and the low word of `x[rs2]`. -/
theorem amoWordResults : Obligations.AmoWordResults := by
  intro rd rs1 rs2 s ha hp
  refine ⟨s.oldWord (s.readX rs1), s.holdsBytes_oldWord _, s.signExtendedFrom_oldWord _, ?_, ?_, ?_, ?_, ?_, ?_, ?_, ?_⟩
  · exact completesAmo_of_amoW ha hp exec_amoaddW rfl
  · exact completesAmo_of_amoW ha hp exec_amoswapW rfl
  · exact completesAmo_of_amoW ha hp exec_amoandW rfl
  · exact completesAmo_of_amoW ha hp exec_amoorW rfl
  · exact completesAmo_of_amoW ha hp exec_amominW (ite_lt_eq_ite_le toInt_injective _ _)
  · exact completesAmo_of_amoW ha hp exec_amomaxW (ite_gt_eq_ite_le BitVec.toInt _ _)
  · exact completesAmo_of_amoW ha hp exec_amominuW (ite_lt_eq_ite_le BitVec.toNat_injective _ _)
  · exact completesAmo_of_amoW ha hp exec_amomaxuW (ite_gt_eq_ite_le BitVec.toNat _ _)

/-- Settles O38: each AMO.D is, on RV64, the template with its operator on the doubleword in memory and `x[rs2]`. -/
theorem amoDoubleResults : Obligations.AmoDoubleResults := by
  intro rd rs1 rs2 s hx ha hp
  refine ⟨s.memRead (s.readX rs1) 8, s.holdsBytes_memRead _ le_rfl, ?_, ?_, ?_, ?_, ?_, ?_, ?_, ?_⟩
  · exact completesAmo_of_amoD hx ha hp exec_amoaddD rfl
  · exact completesAmo_of_amoD hx ha hp exec_amoswapD rfl
  · exact completesAmo_of_amoD hx ha hp exec_amoandD rfl
  · exact completesAmo_of_amoD hx ha hp exec_amoorD rfl
  · exact completesAmo_of_amoD hx ha hp exec_amominD (ite_lt_eq_ite_le toInt_injective _ _)
  · exact completesAmo_of_amoD hx ha hp exec_amomaxD (ite_gt_eq_ite_le BitVec.toInt _ _)
  · exact completesAmo_of_amoD hx ha hp exec_amominuD (ite_lt_eq_ite_le BitVec.toNat_injective _ _)
  · exact completesAmo_of_amoD hx ha hp exec_amomaxuD (ite_gt_eq_ite_le BitVec.toNat _ _)

end Sys2Proof.Machine
end

section
/-! PROOFS. Legal instructions complete (spec/60_exceptions.md R487, R491): with every address permitted, no shared operation
traps, and the checks of the instruction word let a legal instruction through. -/

namespace Sys2Proof

/-! ### What a legal instruction is -/

theorem Instr.wellFormed_iff {i : Instr} {xl : Xlen} :
    i.wellFormed xl = true ↔ i.variantOk xl = true ∧ i.shamtOk xl = true ∧ i.rmOk = true := by
  simp only [Instr.wellFormed, Bool.and_eq_true, and_assoc]

theorem Instr.eq_rv64_of_variantOk {i : Instr} {xl : Xlen} (h : i.variantOk xl = true) (h64 : i.rv64Only = true) :
    xl = .rv64 := by
  cases xl with
  | rv32 => rw [Instr.variantOk_eq_false_iff.mpr ⟨rfl, h64⟩] at h; cases h
  | rv64 => rfl

theorem Instr.shamt_in_range_of_shamtOk {i : Instr} {xl : Xlen} {shamt : BitVec 6} (h : i.shamtOk xl = true)
    (hfield : i.shamt6 = some shamt) : ¬(xl = .rv32 ∧ shamt.getLsbD 5 = true) := by
  rintro ⟨hx, hbit⟩
  rw [Instr.shamtOk_eq_false_iff.mpr ⟨hx, shamt, hfield, hbit⟩] at h
  cases h

theorem Instr.rmFieldValid_of_rmOk {i : Instr} {rm : BitVec 3} (h : i.rmOk = true) (hfield : i.rmField = some rm) :
    rmFieldValid rm = true := by
  simpa [Instr.rmOk, hfield] using h

/-- A valid rounding-mode field names a mode or selects the dynamic one (R90). -/
theorem rmFieldValid_cases : ∀ {rm : BitVec 3}, rmFieldValid rm = true → rm = 0b111#3 ∨ rm.toNat < 5 := by decide

end Sys2Proof

namespace Sys2Proof.Machine

/-! ### Checks that succeed -/

theorem RMode.ofCode_of_lt : ∀ {code : BitVec 3}, code.toNat < 5 → ∃ m, RMode.ofCode code = some m := by
  simp only [← Option.isSome_iff_exists]
  decide

/-- A valid field selects a mode, as long as `fsr` holds one where the field asks for it (R292). -/
theorem State.exists_effRM {s : State} {rm : BitVec 3} (hvalid : rmFieldValid rm = true)
    (hdyn : rm = 0b111#3 → s.fsrRM.toNat < 5) : ∃ m, s.effRM rm = some m := by
  unfold State.effRM
  split
  next h => exact RMode.ofCode_of_lt (hdyn h)
  next h => exact RMode.ofCode_of_lt ((rmFieldValid_cases hvalid).resolve_left h)

theorem checkShamt_of_in_range {i : Instr} {shamt : BitVec 6} {s : State} {k : Result}
    (h : ¬(s.cfg.xlen = .rv32 ∧ shamt.getLsbD 5 = true)) : checkShamt i shamt s k = k :=
  if_neg h

theorem State.permitted_of_perm_all {s : State} (h : ∀ a, MemMap.perm s.cfg.memMap a = Perm.all) (kinds : List AccessKind)
    (a : XWord) (n : Nat) : s.Permitted kinds a n := by
  intro b _ kind _
  rw [h]
  cases kind <;> rfl

/-- An alignment asked for by the fields of an instruction's word, said of its operands: `rs1` is in bits 26:22 of a word of the
R format, and `funct3`, which for an AMO names the width, in bits 9:7 (R83, R150). -/
theorem aligned_of_encR {i : Instr} {s : State} {rd rs1 rs2 : Reg} {funct10 : BitVec 10} {op : BitVec 7} {n : Nat}
    (halign : (encode i).extractLsb' 0 7 = op →
      s.ux ((encode i).extractLsb' 22 5) % 2 ^ ((encode i).extractLsb' 7 3).toNat = 0)
    (he : encode i = encR rd rs1 rs2 funct10 op) (hn : 2 ^ (funct10.extractLsb' 0 3).toNat = n) : s.ux rs1 % n = 0 := by
  obtain ⟨-, hrs1, -, hfunct, hop⟩ := encR_eq_iff.mp he.symm
  have hfunct3 : (encode i).extractLsb' 7 3 = funct10.extractLsb' 0 3 := by
    rw [hfunct]
    ext k hk
    simp [show k < 10 by omega]
  have h := halign hop.symm
  rw [hfunct3, hn] at h
  rwa [hrs1]

/-! ### Operations that complete -/

/-- The result of an instruction is a next state without a trap, which counts the instruction (R435). -/
def Completes (s : State) (r : Result) : Prop := ∃ t, r = .next t ∧ s.TrapFree t ∧ t.instret = s.instret + 1

namespace Completes

variable {s : State}

theorem of_retireTo {u : State} {pc : XWord} (htraps : u.traps = s.traps) (hcount : u.instret = s.instret) :
    Completes s (.next (u.retireTo pc)) :=
  ⟨_, rfl, htraps, congrArg (· + 1) hcount⟩

theorem putX {rd : Reg} {v : XWord} : Completes s (putX rd v s) := of_retireTo (by simp) (by simp)

theorem putXFlags {rd : Reg} {v : XWord} {fl : FFlags} : Completes s (putXFlags rd v fl s) :=
  of_retireTo (by simp) (by simp)

theorem putF {rd : Reg} {v : FReg} : Completes s (putF rd v s) := of_retireTo rfl rfl

theorem putFFlags {rd : Reg} {v : FReg} {fl : FFlags} : Completes s (putFFlags rd v fl s) := of_retireTo rfl rfl

theorem jumpLink {rd : Reg} {pc : XWord} : Completes s (jumpLink rd pc s) := of_retireTo (by simp) (by simp)

theorem branch {taken : Bool} {imm12 : BitVec 12} : Completes s (branch taken imm12 s) := of_retireTo rfl rfl

theorem rv64Only {i : Instr} {k : Result} (hx : s.cfg.xlen = .rv64) (hk : Completes s k) : Completes s (rv64Only i s k) := by
  rwa [rv64Only_rv64 hx]

theorem withRM {i : Instr} {rm : BitVec 3} {k : RMode → Result} (h : ∃ m, s.effRM rm = some m)
    (hk : ∀ m, Completes s (k m)) : Completes s (withRM i rm s k) := by
  obtain ⟨m, hm⟩ := h
  rw [withRM_some hm]
  exact hk m

theorem checkShamt {i : Instr} {shamt : BitVec 6} {k : Result} (h : ¬(s.cfg.xlen = .rv32 ∧ shamt.getLsbD 5 = true))
    (hk : Completes s k) : Completes s (checkShamt i shamt s k) := by
  rwa [checkShamt_of_in_range h]

theorem loadThen {a : XWord} {n : Nat} {k : BitVec 64 → Result} (hp : s.Permitted [.load] a n)
    (hk : ∀ v, Completes s (k v)) : Completes s (loadThen a n s k) := by
  rw [loadThen_of_permitted hp]
  exact hk _

theorem loadSigned {w : Nat} {rd rs1 : Reg} {imm12 : BitVec 12} (hp : s.Permitted [.load] (s.address rs1 imm12) (w / 8)) :
    Completes s (loadSigned w rd rs1 imm12 s) :=
  loadThen hp fun _ => putX

theorem loadUnsigned {w : Nat} {rd rs1 : Reg} {imm12 : BitVec 12}
    (hp : s.Permitted [.load] (s.address rs1 imm12) (w / 8)) : Completes s (loadUnsigned w rd rs1 imm12 s) :=
  loadThen hp fun _ => putX

theorem storeDone {a : XWord} {n : Nat} {v : BitVec 64} (hp : s.Permitted [.store] a n) : Completes s (storeDone a n v s) := by
  rw [storeDone_of_permitted hp]
  exact of_retireTo (by simp) (by simp)

theorem amo {rd rs1 : Reg} {n : Nat} {op : BitVec 64 → BitVec 64} {ext : BitVec 64 → XWord} (ha : s.ux rs1 % n = 0)
    (hp : s.Permitted [.load, .store] (s.readX rs1) n) : Completes s (amo rd rs1 n op ext s) := by
  rw [amo_of_permitted ha hp]
  exact of_retireTo (by simp) (by simp)

theorem amoW {op : BitVec 32 → BitVec 32 → BitVec 32} {rd rs1 rs2 : Reg} (ha : s.ux rs1 % 4 = 0)
    (hp : s.Permitted [.load, .store] (s.readX rs1) 4) : Completes s (amoW op rd rs1 rs2 s) :=
  amo ha hp

theorem amoD {i : Instr} {op : BitVec 64 → BitVec 64 → BitVec 64} {rd rs1 rs2 : Reg} (hx : s.cfg.xlen = .rv64)
    (ha : s.ux rs1 % 8 = 0) (hp : s.Permitted [.load, .store] (s.readX rs1) 8) :
    Completes s (amoD i op rd rs1 rs2 s) :=
  rv64Only hx (amo ha hp)

end Completes

/-! ### The statement -/

/-- Settles O19: the instructions grouped by the shared operations they call, each of which completes. -/
theorem legalInstructionsComplete : Obligations.LegalInstructionsComplete := by
  intro i s hwf hall hdyn hsyscall hbrk halign
  obtain ⟨hvariant, hshamt, hrm⟩ := Instr.wellFormed_iff.mp hwf
  have rv64 (h64 : i.rv64Only = true) : s.cfg.xlen = .rv64 := Instr.eq_rv64_of_variantOk hvariant h64
  have inRange {shamt} (h : i.shamt6 = some shamt) := Instr.shamt_in_range_of_shamtOk hshamt h
  have mode {rm} (h : i.rmField = some rm) : ∃ m, s.effRM rm = some m :=
    State.exists_effRM (Instr.rmFieldValid_of_rmOk hrm h) fun h7 => hdyn (h.trans (congrArg some h7))
  have permitted {kinds a n} : s.Permitted kinds a n := State.permitted_of_perm_all hall kinds a n
  change Completes s (exec i s)
  clear hwf hvariant hshamt hrm hdyn
  cases i <;> unfold exec
  case syscall => exact absurd rfl hsyscall
  case brk => exact absurd rfl hbrk
  case j | fence | fenceI => exact .of_retireTo rfl rfl
  case jal | jalrC | jalrR | jalrJ => exact .jumpLink
  case beq | bne | blt | bge | bltu | bgeu => exact .branch
  case mtfsr => exact .of_retireTo (by simp) (by simp)
  case rdnpc | addi | slti | sltiu | xori | ori | andi | add | sub | sll | slt | sltu | xor | srl | sra | or | and
      | mul | mulh | mulhsu | mulhu | div | divu | rem | remu | lui | mftxS | mffsr | rdcycle | rdtime | rdinstret =>
    exact .putX
  case slli | srli | srai => exact .checkShamt (inRange rfl) .putX
  case addiw | slliw | srliw | sraiw | addw | subw | sllw | srlw | sraw | mulw | divw | divuw | remw | remuw | mftxD =>
    exact .rv64Only (rv64 rfl) .putX
  case lb | lh | lw => exact .loadSigned permitted
  case lbu | lhu => exact .loadUnsigned permitted
  case ld | lwu => exact .rv64Only (rv64 rfl) (.loadUnsigned permitted)
  case flw | fld => exact .loadThen permitted fun _ => .putF
  case sb | sh | sw | fsw | fsd => exact .storeDone permitted
  case sd => exact .rv64Only (rv64 rfl) (.storeDone permitted)
  case amoaddW | amoswapW | amoandW | amoorW | amominW | amomaxW | amominuW | amomaxuW =>
    exact .amoW (aligned_of_encR halign rfl (by decide)) permitted
  case amoaddD | amoswapD | amoandD | amoorD | amominD | amomaxD | amominuD | amomaxuD =>
    exact .amoD (rv64 rfl) (aligned_of_encR halign rfl (by decide)) permitted
  case faddS | fsubS | fmulS | fdivS | fsqrtS | fmaddS | fmsubS | fnmsubS | fnmaddS | fcvtSD | fcvtSW | fcvtSWU
      | faddD | fsubD | fmulD | fdivD | fsqrtD | fmaddD | fmsubD | fnmsubD | fnmaddD | fcvtDS | fcvtDW | fcvtDWU =>
    exact .withRM (mode rfl) fun _ => .putFFlags
  case fcvtSL | fcvtSLU | fcvtDL | fcvtDLU => exact .rv64Only (rv64 rfl) (.withRM (mode rfl) fun _ => .putFFlags)
  case fminS | fmaxS | fminD | fmaxD => exact .putFFlags
  case fsgnjS | fsgnjnS | fsgnjxS | fsgnjD | fsgnjnD | fsgnjxD | mxtfS => exact .putF
  case mxtfD => exact .rv64Only (rv64 rfl) .putF
  case fcvtWS | fcvtWUS | fcvtWD | fcvtWUD => exact .withRM (mode rfl) fun _ => .putXFlags
  case fcvtLS | fcvtLUS | fcvtLD | fcvtLUD => exact .rv64Only (rv64 rfl) (.withRM (mode rfl) fun _ => .putXFlags)
  case feqS | fltS | fleS | feqD | fltD | fleD => exact .putXFlags

end Sys2Proof.Machine
end

section
/-! PROOFS. Integer computation (spec/42_integer_computational.md): results of `XPRLEN` bits and of 32 bits as integers modulo
a power of two, comparisons as 0 or 1, logical results bit by bit, and shifts as products and floor quotients. -/

namespace Sys2Proof.Machine

/-! ### Values as integers modulo a power of two -/

theorem toNat_eq_toInt_emod {w : Nat} (v : BitVec w) : (v.toNat : Int) = v.toInt % (2 ^ w : Nat) := by
  rw [BitVec.toInt_eq_toNat_bmod, Int.bmod_emod, Int.emod_eq_of_lt (by omega) (by exact_mod_cast v.isLt)]

theorem two_pow_bits_dvd (xl : Xlen) : 2 ^ xl.bits ∣ 2 ^ 64 := Nat.pow_dvd_pow 2 xl.bits_le_sixtyFour

/-- An integer narrowed to `XPRLEN` bits is taken modulo `2^XPRLEN`. -/
theorem ofInt_toNat (xl : Xlen) (n : Int) : ((ofInt xl n).toNat : Int) = n % (2 ^ xl.bits : Nat) := by
  have hdvd : ((2 ^ xl.bits : Nat) : Int) ∣ (2 ^ 64 : Nat) := Int.natCast_dvd_natCast.mpr (two_pow_bits_dvd xl)
  rw [ofInt, trunc_toNat, Int.natCast_emod, toNat_eq_toInt_emod, BitVec.toInt_ofInt, Int.bmod_emod,
    Int.emod_emod_of_dvd _ hdvd]

/-- A sign-extended value is its signed number modulo `2^XPRLEN` (R12). -/
theorem sext_toNat {w : Nat} (xl : Xlen) (v : BitVec w) : ((sext xl v).toNat : Int) = v.toInt % (2 ^ xl.bits : Nat) :=
  ofInt_toNat xl v.toInt

theorem trunc_add_toNat (xl : Xlen) (a b : XWord) : (trunc xl (a + b)).toNat = (a.toNat + b.toNat) % 2 ^ xl.bits := by
  rw [trunc_toNat, BitVec.toNat_add, Nat.mod_mod_of_dvd _ (two_pow_bits_dvd xl)]

theorem trunc_sub_toNat (xl : Xlen) (a b : XWord) :
    ((trunc xl (a - b)).toNat : Int) = ((a.toNat : Int) - b.toNat) % (2 ^ xl.bits : Nat) := by
  rw [trunc_toNat, BitVec.toNat_sub]
  cases xl <;> simp only [Xlen.bits] <;> omega

/-- The value of LUI, sign-extended, is the immediate times 4096 (R87, R196). -/
theorem immU_toInt (imm20 : BitVec 20) : (immU imm20).toInt = imm20.toInt * 4096 := by
  rw [immU, BitVec.toInt_append_zero, mul_comm]
  rfl

/-! ### Comparisons -/

theorem ofBool_decide (p : Prop) [Decidable p] : ofBool (decide p) = bit p := by
  simp only [ofBool, bit, decide_eq_true_iff]

theorem trunc_ofBool (xl : Xlen) (b : Bool) : trunc xl (ofBool b) = ofBool b := by
  cases xl <;> cases b <;> rfl

/-- An instruction that writes the truth value of a comparison completes with 1 or 0 (R183). -/
theorem completesX_of_compare {i : Instr} {rd : Reg} {s : State} {p q : Prop} [Decidable p] [Decidable q]
    (he : exec i s = putX rd (ofBool (decide p)) s) (hpq : p ↔ q) : CompletesX i rd s (fun v => v = bit q) :=
  completesX_of_putX he (trunc_ofBool _ _) (by rw [ofBool_decide]; simp only [bit, hpq])

/-- The I-type operand as a signed number is the immediate (R85). -/
theorem signed_immI (xl : Xlen) (imm12 : BitVec 12) : signed xl (immI xl imm12) = imm12.toInt := by
  have hnat := sext_toNat xl imm12
  have hlow := BitVec.le_toInt imm12
  have hhigh := BitVec.toInt_lt (x := imm12)
  rw [immI, signed_of_lt (v := sext xl imm12) (trunc_lt xl _)]
  split <;> cases xl <;> simp only [Xlen.bits] at * <;> omega

theorem unsigned_immI (xl : Xlen) (imm12 : BitVec 12) :
    (unsigned xl (immI xl imm12) : Int) = imm12.toInt % (2 ^ xl.bits : Nat) := by
  rw [unsigned, immI, sext, trunc_trunc]
  exact sext_toNat xl imm12

/-! ### Logical results -/

/-- Bit `k` of the I-type operand is that of the immediate, whose sign fills the upper bits (R85). -/
theorem immI_getLsbD (xl : Xlen) (imm12 : BitVec 12) (k : Nat) :
    (immI xl imm12).getLsbD k = (decide (k < xl.bits) && imm12.getLsbD (min k 11)) := by
  rw [immI, sext_getLsbD, BitVec.msb_eq_getLsbD_last]
  split
  next h => rw [Nat.min_eq_left (by omega)]
  next h => rw [Nat.min_eq_right (by omega)]

theorem trunc_eq_of_getLsbD {xl : Xlen} {v : XWord} (h : ∀ k, xl.bits ≤ k → v.getLsbD k = false) : trunc xl v = v := by
  apply BitVec.eq_of_getLsbD_eq
  intro k _
  rw [trunc_getLsbD]
  by_cases hk : k < xl.bits
  · simp [hk]
  · simp [hk, h k (Nat.not_lt.mp hk)]

theorem getLsbD_of_trunc_eq {xl : Xlen} {v : XWord} (h : trunc xl v = v) {k : Nat} (hk : xl.bits ≤ k) :
    v.getLsbD k = false := by
  rw [← h, trunc_getLsbD, decide_eq_false (Nat.not_lt.mpr hk), Bool.false_and]

section

variable {i : Instr} {rd rs1 : Reg} {s : State} {v w : XWord} {op : Bool → Bool → Bool}

/-- A logical instruction completes with the bits that its operator makes of the bits of its sources, of which those above
`XPRLEN` are 0 (R202 to R204). -/
theorem completesX_of_bits (hop : op false false = false) (he : exec i s = putX rd v s)
    (hv : ∀ k, v.getLsbD k = op ((s.readX rs1).getLsbD k) (w.getLsbD k)) (hw : trunc s.cfg.xlen w = w) :
    CompletesX i rd s (fun v => ∀ k, v.getLsbD k = op ((s.readX rs1).getLsbD k) (w.getLsbD k)) := by
  refine completesX_of_putX he (trunc_eq_of_getLsbD fun k hk => ?_) hv
  rw [hv, getLsbD_of_trunc_eq (s.trunc_readX rs1) hk, getLsbD_of_trunc_eq hw hk, hop]

/-- A logical instruction with an immediate, said of the bits of the immediate (R185 to R187). -/
theorem completesX_of_bits_immI {imm12 : BitVec 12} (hop : op false false = false) (he : exec i s = putX rd v s)
    (hv : ∀ k, v.getLsbD k = op ((s.readX rs1).getLsbD k) ((immI s.cfg.xlen imm12).getLsbD k)) :
    CompletesX i rd s (fun v => ∀ k, v.getLsbD k =
      (decide (k < s.cfg.xlen.bits) && op ((s.readX rs1).getLsbD k) (imm12.getLsbD (min k 11)))) := by
  refine (completesX_of_bits hop he hv (trunc_trunc _ _)).imp fun u hu k => ?_
  rw [hu, immI_getLsbD]
  by_cases hk : k < s.cfg.xlen.bits
  · simp [hk]
  · simp [hk, getLsbD_of_trunc_eq (s.trunc_readX rs1) (Nat.not_lt.mp hk), hop]

end

/-! ### Shifts -/

/-- A left shift multiplies, modulo `2^XPRLEN` (R190). -/
theorem shiftLeft_toNat (xl : Xlen) (v : XWord) (n : Nat) : (shiftLeft xl v n).toNat = v.toNat * 2 ^ n % 2 ^ xl.bits := by
  rw [shiftLeft, trunc_toNat, BitVec.toNat_shiftLeft, Nat.mod_mod_of_dvd _ (two_pow_bits_dvd xl), Nat.shiftLeft_eq]

/-- A logical right shift is floor division (R191). -/
theorem shiftRight_toNat (xl : Xlen) (v : XWord) (n : Nat) : (shiftRight xl v n).toNat = unsigned xl v / 2 ^ n := by
  rw [shiftRight, BitVec.toNat_ushiftRight, Nat.shiftRight_eq_div_pow, unsigned]

/-- An arithmetic right shift is floor division of the signed number (R192). -/
theorem shiftRightArith_toNat (xl : Xlen) (v : XWord) (n : Nat) :
    ((shiftRightArith xl v n).toNat : Int) = signed xl v / 2 ^ n % (2 ^ xl.bits : Nat) := by
  rw [shiftRightArith, ofInt_toNat, Int.shiftRight_eq_div_pow, Nat.cast_pow, Nat.cast_ofNat]

theorem trunc_shiftRight (xl : Xlen) (v : XWord) (n : Nat) : trunc xl (shiftRight xl v n) = shiftRight xl v n := by
  refine trunc_of_fits ?_
  rw [shiftRight_toNat]
  exact (Nat.div_le_self _ _).trans_lt (trunc_lt xl v)

section

variable {i : Instr} {rd rs1 : Reg} {n : Nat} {s : State}

theorem completesX_of_shiftLeft (he : exec i s = putX rd (shiftLeft s.cfg.xlen (s.readX rs1) n) s) :
    CompletesX i rd s (fun v => v.toNat = s.ux rs1 * 2 ^ n % s.modulus) :=
  completesX_of_putX he (trunc_trunc _ _) (shiftLeft_toNat _ _ _)

theorem completesX_of_shiftRight (he : exec i s = putX rd (shiftRight s.cfg.xlen (s.readX rs1) n) s) :
    CompletesX i rd s (fun v => v.toNat = s.ux rs1 / 2 ^ n) :=
  completesX_of_putX he (trunc_shiftRight _ _ _) (by rw [shiftRight_toNat, s.unsigned_readX])

theorem completesX_of_shiftRightArith (he : exec i s = putX rd (shiftRightArith s.cfg.xlen (s.readX rs1) n) s) :
    CompletesX i rd s (fun v => (v.toNat : Int) = s.sx rs1 / 2 ^ n % s.modulus) :=
  completesX_of_putX he (trunc_trunc _ _) (by rw [shiftRightArith_toNat, s.signed_readX, State.modulus])

end

/-- A constant amount below `XPRLEN` passes the check of R189. -/
theorem checkShamt_of_lt {i : Instr} {shamt : BitVec 6} {s : State} {k : Result} (h : shamt.toNat < s.cfg.xlen.bits) :
    checkShamt i shamt s k = k := by
  refine checkShamt_of_in_range fun ⟨hx, hbit⟩ => ?_
  rw [hx] at h
  exact absurd hbit (by simp [BitVec.getLsbD, Nat.testBit_lt_two_pow (i := 5) h])

/-! ### Results of 32 bits on RV64 (R181) -/

/-- A W instruction completes on RV64 with its 32-bit result, sign-extended. -/
theorem completesX_of_putW {i : Instr} {rd : Reg} {r : BitVec 32} {n : Int} {s : State} (hx : s.cfg.xlen = .rv64)
    (he : exec i s = rv64Only i s (putW rd r s)) (hr : (r.toNat : Int) = n % 2 ^ 32) :
    CompletesX i rd s (fun v => (v.toNat : Int) % 2 ^ 32 = n % 2 ^ 32 ∧ SignExtendedFrom .rv64 32 v) := by
  refine completesX_of_putX (he.trans (rv64Only_rv64 hx)) (trunc_trunc _ _) ⟨?_, ?_⟩
  · have hdvd : (2 ^ 32 : Int) ∣ ((2 ^ 64 : Nat) : Int) := by decide
    rw [hx, sext_toNat, Xlen.bits, Int.emod_emod_of_dvd _ hdvd, ← hr, toNat_eq_toInt_emod]
    rfl
  · rw [hx]
    exact signExtendedFrom_sext _ _ (by decide) (by decide)

theorem State.readW_toNat (s : State) (r : Reg) : (s.readW r).toNat = s.ux r % 2 ^ 32 := BitVec.toNat_setWidth _ _

theorem State.readW_toInt (s : State) (r : Reg) : (s.readW r).toInt =
    if s.ux r % 2 ^ 32 < 2 ^ 31 then ((s.ux r % 2 ^ 32 : Nat) : Int) else ((s.ux r % 2 ^ 32 : Nat) : Int) - 2 ^ 32 := by
  rw [BitVec.toInt_eq_toNat_cond, s.readW_toNat]
  split <;> split <;> omega

theorem shiftLeftW_toNat (a : BitVec 32) (n : Nat) : ((a <<< n).toNat : Int) = (a.toNat * 2 ^ n : Nat) % 2 ^ 32 := by
  rw [BitVec.toNat_shiftLeft, Nat.shiftLeft_eq]
  rfl

theorem shiftRightW_toNat (a : BitVec 32) (n : Nat) : ((a >>> n).toNat : Int) = (a.toNat / 2 ^ n : Nat) % 2 ^ 32 := by
  have hlt : a.toNat / 2 ^ n < 2 ^ 32 := (Nat.div_le_self _ _).trans_lt a.isLt
  rw [BitVec.toNat_ushiftRight, Nat.shiftRight_eq_div_pow]
  exact congrArg Nat.cast (Nat.mod_eq_of_lt hlt).symm

theorem shiftRightArithW_toNat (a : BitVec 32) (n : Nat) :
    ((a.sshiftRight n).toNat : Int) = a.toInt / 2 ^ n % 2 ^ 32 := by
  rw [toNat_eq_toInt_emod, BitVec.toInt_sshiftRight, Int.shiftRight_eq_div_pow, Nat.cast_pow, Nat.cast_ofNat]
  rfl

theorem addImmW_toNat (a : BitVec 32) (imm12 : BitVec 12) :
    ((a + immI32 imm12).toNat : Int) = (a.toNat + imm12.toInt) % 2 ^ 32 := by
  have himm : (immI32 imm12).toInt = imm12.toInt := BitVec.toInt_signExtend_of_le (by decide)
  rw [← himm, BitVec.toInt_eq_toNat_cond, BitVec.toNat_add]
  split <;> omega

theorem subW_toNat (a b : BitVec 32) : ((a - b).toNat : Int) = ((a.toNat : Int) - b.toNat) % 2 ^ 32 := by
  rw [BitVec.toNat_sub]
  omega

/-! ### The statements -/

/-- Settles O23: sums and differences are narrowed to `XPRLEN` bits, and the operands of the comparisons are read as numbers. -/
theorem addCompareAndLuiResults : Obligations.AddCompareAndLuiResults := by
  intro rd rs1 rs2 imm imm20 s
  refine ⟨?_, ?_, ?_, ?_, ?_, ?_, ?_, ?_⟩
  · exact completesX_of_putX rfl (trunc_trunc _ _) (by rw [sext_toNat, immU_toInt, State.modulus])
  · exact completesX_of_putX rfl (trunc_trunc _ _) (s.address_toNat rs1 imm)
  · exact completesX_of_compare rfl (by rw [s.signed_readX, signed_immI])
  · exact completesX_of_compare rfl (by rw [← Int.ofNat_lt, s.unsigned_readX, unsigned_immI, State.modulus])
  · exact completesX_of_putX rfl (trunc_trunc _ _) (trunc_add_toNat _ _ _)
  · exact completesX_of_putX rfl (trunc_trunc _ _) (trunc_sub_toNat _ _ _)
  · exact completesX_of_compare rfl (by rw [s.signed_readX, s.signed_readX])
  · exact completesX_of_compare rfl (by rw [s.unsigned_readX, s.unsigned_readX])

/-- Settles O24: each instruction applies its operator to every bit, and none of them makes a 1 of two 0s. -/
theorem logicalResults : Obligations.LogicalResults := by
  intro rd rs1 rs2 imm s
  refine ⟨?_, ?_, ?_, ?_, ?_, ?_⟩
  · exact completesX_of_bits_immI (op := xor) rfl rfl fun _ => BitVec.getLsbD_xor
  · exact completesX_of_bits_immI (op := or) rfl rfl fun _ => BitVec.getLsbD_or
  · exact completesX_of_bits_immI (op := and) rfl rfl fun _ => BitVec.getLsbD_and
  · exact completesX_of_bits (op := xor) rfl rfl (fun _ => BitVec.getLsbD_xor) (s.trunc_readX rs2)
  · exact completesX_of_bits (op := or) rfl rfl (fun _ => BitVec.getLsbD_or) (s.trunc_readX rs2)
  · exact completesX_of_bits (op := and) rfl rfl (fun _ => BitVec.getLsbD_and) (s.trunc_readX rs2)

/-- Settles O25: a shift by a constant in range and one by a register amount are the same three operations. -/
theorem shiftResults : Obligations.ShiftResults := by
  intro rd rs1 rs2 shamt s
  refine ⟨fun h => ⟨?_, ?_, ?_⟩, ?_, ?_, ?_⟩
  · exact completesX_of_shiftLeft (checkShamt_of_lt h)
  · exact completesX_of_shiftRight (checkShamt_of_lt h)
  · exact completesX_of_shiftRightArith (checkShamt_of_lt h)
  · exact completesX_of_shiftLeft rfl
  · exact completesX_of_shiftRight rfl
  · exact completesX_of_shiftRightArith rfl

/-- Settles O26: each W instruction computes on the low words of its sources, as the operation on 32 bits does. -/
theorem wordResults : Obligations.WordResults := by
  intro rd rs1 rs2 imm shamt s hx
  dsimp only
  rw [← s.readW_toInt rs1, ← s.readW_toNat rs1, ← s.readW_toNat rs2]
  have amount : shiftAmountW (s.readX rs2) = (s.readW rs2).toNat % 32 := by
    rw [shiftAmountW, s.readW_toNat, Nat.mod_mod_of_dvd _ (by decide)]
    rfl
  rw [← amount]
  refine ⟨?_, ?_, ?_, ?_, ?_, ?_, ?_, ?_, ?_, ?_⟩
  · exact completesX_of_putW hx rfl (addImmW_toNat _ _)
  · exact completesX_of_putW hx rfl (shiftLeftW_toNat _ _)
  · exact completesX_of_putW hx rfl (shiftRightW_toNat _ _)
  · exact completesX_of_putW hx rfl (shiftRightArithW_toNat _ _)
  · exact completesX_of_putW hx rfl (congrArg _ (BitVec.toNat_add _ _))
  · exact completesX_of_putW hx rfl (subW_toNat _ _)
  · exact completesX_of_putW hx rfl (shiftLeftW_toNat _ _)
  · exact completesX_of_putW hx rfl (shiftRightW_toNat _ _)
  · exact completesX_of_putW hx rfl (shiftRightArithW_toNat _ _)
  · exact completesX_of_putW hx rfl (congrArg _ (BitVec.toNat_mul _ _))

end Sys2Proof.Machine
end

section
/-! PROOFS. Integer multiply and divide (spec/43_muldiv.md): the quotients and remainders of R236 by their cases, the results
of the instructions as functions of their operands read as numbers, and those results narrowed to `XPRLEN` or 32 bits. -/

namespace Sys2Proof.Machine

/-! ### Quotients and remainders (R236) -/

section

variable (w : Nat)

theorem divSigned_zero (a : Int) : divSigned w a 0 = -1 := if_pos rfl

theorem remSigned_zero (a : Int) : remSigned w a 0 = a := if_pos rfl

theorem divSigned_overflow : divSigned w (-2 ^ (w - 1)) (-1) = -2 ^ (w - 1) := by
  rw [divSigned, if_neg (by decide), if_pos ⟨rfl, rfl⟩]

theorem remSigned_overflow : remSigned w (-2 ^ (w - 1)) (-1) = 0 := by
  rw [remSigned, if_neg (by decide), if_pos ⟨rfl, rfl⟩]

variable {w} {a b : Int}

theorem divSigned_eq_tdiv (hb : b ≠ 0) (ho : ¬(a = -2 ^ (w - 1) ∧ b = -1)) : divSigned w a b = a.tdiv b := by
  rw [divSigned, if_neg hb, if_neg ho]

theorem remSigned_eq_tmod (hb : b ≠ 0) (ho : ¬(a = -2 ^ (w - 1) ∧ b = -1)) : remSigned w a b = a.tmod b := by
  rw [remSigned, if_neg hb, if_neg ho]

end

theorem natAbs_tmod_lt (a : Int) {b : Int} (hb : b ≠ 0) : (a.tmod b).natAbs < b.natAbs := by
  rw [Int.natAbs_tmod]
  exact Nat.mod_lt _ (Int.natAbs_pos.mpr hb)

/-- The remainder of truncated division is 0 or has the sign of the dividend. -/
theorem tmod_mul_self_nonneg (a b : Int) : 0 ≤ a.tmod b * a := by
  rcases le_total 0 a with ha | ha
  · exact mul_nonneg (Int.tmod_nonneg b ha) ha
  · have hneg : 0 ≤ -a.tmod b := by
      rw [← Int.neg_tmod]
      exact Int.tmod_nonneg b (neg_nonneg.mpr ha)
    exact mul_nonneg_of_nonpos_of_nonpos (neg_nonneg.mp hneg) ha

/-- Signed division and remainder by the three cases of R236: a zero divisor, overflow, and the general case, in which the
quotient is truncated. -/
theorem signedDivision_cases (w : Nat) (a b : Int) :
    (b = 0 → divSigned w a b = -1 ∧ remSigned w a b = a) ∧
    (a = -2 ^ (w - 1) ∧ b = -1 → divSigned w a b = a ∧ remSigned w a b = 0) ∧
    (b ≠ 0 → ¬(a = -2 ^ (w - 1) ∧ b = -1) → a = b * divSigned w a b + remSigned w a b ∧
      (remSigned w a b).natAbs < b.natAbs ∧ 0 ≤ remSigned w a b * a) := by
  refine ⟨?zero, ?overflow, fun hb ho => ?general⟩
  case zero =>
    rintro rfl
    exact ⟨divSigned_zero w a, remSigned_zero w a⟩
  case overflow =>
    rintro ⟨rfl, rfl⟩
    exact ⟨divSigned_overflow w, remSigned_overflow w⟩
  case general =>
    rw [divSigned_eq_tdiv hb ho, remSigned_eq_tmod hb ho]
    exact ⟨(Int.mul_tdiv_add_tmod a b).symm, natAbs_tmod_lt a hb, tmod_mul_self_nonneg a b⟩

/-- Unsigned division and remainder by the two cases of R236. -/
theorem unsignedDivision_cases (w a b : Nat) :
    (b = 0 → divUnsigned w a b = 2 ^ w - 1 ∧ remUnsigned a b = a) ∧
    (b ≠ 0 → a = b * divUnsigned w a b + remUnsigned a b ∧ remUnsigned a b < b) := by
  refine ⟨fun hb => ⟨if_pos hb, if_pos hb⟩, fun hb => ?_⟩
  rw [divUnsigned, remUnsigned, if_neg hb, if_neg hb]
  exact ⟨(Nat.div_add_mod a b).symm, Nat.mod_lt _ (Nat.pos_of_ne_zero hb)⟩

theorem divUnsigned_lt {w a : Nat} (b : Nat) (ha : a < 2 ^ w) : divUnsigned w a b < 2 ^ w := by
  rw [divUnsigned]
  split
  · exact Nat.sub_lt (Nat.two_pow_pos w) Nat.one_pos
  · exact (Nat.div_le_self a b).trans_lt ha

theorem remUnsigned_le (a b : Nat) : remUnsigned a b ≤ a := by
  rw [remUnsigned]
  split
  · exact le_rfl
  · exact Nat.mod_le a b

/-! ### Results narrowed to `XPRLEN` bits -/

theorem trunc_mul_toNat (xl : Xlen) (a b : XWord) : (trunc xl (a * b)).toNat = a.toNat * b.toNat % 2 ^ xl.bits := by
  rw [trunc_toNat, BitVec.toNat_mul, Nat.mod_mod_of_dvd _ (two_pow_bits_dvd xl)]

section

variable {i : Instr} {rd : Reg} {s : State}

/-- An instruction that writes an integer completes with that integer modulo `2^XPRLEN`. -/
theorem completesX_of_ofInt {n : Int} (he : exec i s = putX rd (ofInt s.cfg.xlen n) s) :
    CompletesX i rd s (fun v => (v.toNat : Int) = n % s.modulus) :=
  completesX_of_putX he (trunc_trunc _ _) (ofInt_toNat _ _)

/-- An instruction that writes a number below `2^XPRLEN` completes with that number. -/
theorem completesX_of_ofInt_natCast {n : Nat} (hn : n < s.modulus) (he : exec i s = putX rd (ofInt s.cfg.xlen n) s) :
    CompletesX i rd s (fun v => v.toNat = n) :=
  (completesX_of_ofInt he).imp fun v hv => by
    rw [← Int.natCast_emod, Nat.mod_eq_of_lt hn] at hv
    exact Int.ofNat_inj.mp hv

end

theorem State.ux_lt_modulus (s : State) (r : Reg) : s.ux r < s.modulus := s.readX_lt r

/-- The lowest signed number of `XPRLEN` bits. -/
theorem State.neg_half_modulus (s : State) : -((s.modulus / 2 : Nat) : Int) = -2 ^ (s.cfg.xlen.bits - 1) := by
  rw [State.modulus]
  cases s.cfg.xlen <;> rfl

/-! ### What the instructions write, of their operands as numbers -/

section

variable (rd rs1 rs2 : Reg) (s : State)

theorem exec_mulh : exec (.mulh rd rs1 rs2) s = putX rd (ofInt s.cfg.xlen (s.sx rs1 * s.sx rs2 / s.modulus)) s := by
  rw [← s.signed_readX rs1, ← s.signed_readX rs2, State.modulus, Nat.cast_pow]
  rfl

theorem exec_mulhsu : exec (.mulhsu rd rs1 rs2) s = putX rd (ofInt s.cfg.xlen (s.sx rs1 * s.ux rs2 / s.modulus)) s := by
  rw [← s.signed_readX rs1, ← s.unsigned_readX rs2, State.modulus, Nat.cast_pow]
  rfl

theorem exec_mulhu :
    exec (.mulhu rd rs1 rs2) s = putX rd (ofInt s.cfg.xlen (s.ux rs1 * s.ux rs2 / s.modulus : Nat)) s := by
  rw [← s.unsigned_readX rs1, ← s.unsigned_readX rs2, State.modulus, Int.natCast_ediv, Nat.cast_pow]
  rfl

theorem exec_div :
    exec (.div rd rs1 rs2) s = putX rd (ofInt s.cfg.xlen (divSigned s.cfg.xlen.bits (s.sx rs1) (s.sx rs2))) s := by
  rw [← s.signed_readX rs1, ← s.signed_readX rs2]
  rfl

theorem exec_rem :
    exec (.rem rd rs1 rs2) s = putX rd (ofInt s.cfg.xlen (remSigned s.cfg.xlen.bits (s.sx rs1) (s.sx rs2))) s := by
  rw [← s.signed_readX rs1, ← s.signed_readX rs2]
  rfl

theorem exec_divu : exec (.divu rd rs1 rs2) s =
    putX rd (ofInt s.cfg.xlen (divUnsigned s.cfg.xlen.bits (s.ux rs1) (s.ux rs2) : Nat)) s := by
  rw [← s.unsigned_readX rs1, ← s.unsigned_readX rs2]
  rfl

theorem exec_remu :
    exec (.remu rd rs1 rs2) s = putX rd (ofInt s.cfg.xlen (remUnsigned (s.ux rs1) (s.ux rs2) : Nat)) s := by
  rw [← s.unsigned_readX rs1, ← s.unsigned_readX rs2]
  rfl

end

/-! ### Results of 32 bits on RV64 (R181) -/

section

variable {i : Instr} {rd : Reg} {s : State}

theorem completesX_of_putW_ofInt {n : Int} (hx : s.cfg.xlen = .rv64)
    (he : exec i s = rv64Only i s (putW rd (BitVec.ofInt 32 n) s)) :
    CompletesX i rd s (fun v => (v.toNat : Int) % 2 ^ 32 = n % 2 ^ 32 ∧ SignExtendedFrom .rv64 32 v) :=
  completesX_of_putW hx he <| by
    rw [toNat_eq_toInt_emod, BitVec.toInt_ofInt, Int.bmod_emod]
    rfl

theorem completesX_of_putW_ofNat {n : Nat} (hx : s.cfg.xlen = .rv64)
    (he : exec i s = rv64Only i s (putW rd (BitVec.ofNat 32 n) s)) :
    CompletesX i rd s (fun v => (v.toNat : Int) % 2 ^ 32 = n % 2 ^ 32 ∧ SignExtendedFrom .rv64 32 v) :=
  completesX_of_putW hx he <| by
    rw [BitVec.toNat_ofNat]
    rfl

end

/-! ### Encoding -/

/-- The `funct10` field of an R-type word in its two parts (R82, R83). -/
theorem encR_funct7_funct3 (rd rs1 rs2 : Reg) (funct7 : BitVec 7) (funct3 : BitVec 3) (op : BitVec 7) :
    encR rd rs1 rs2 (funct7 ++ funct3) op = rd ++ rs1 ++ rs2 ++ funct7 ++ funct3 ++ op := by
  apply BitVec.eq_of_toNat_eq
  simp only [encR, BitVec.toNat_append, Nat.shiftLeft_or_distrib, ← Nat.shiftLeft_add, Nat.or_assoc]

/-! ### The statements -/

/-- Settles O27: the products are exact, and the low or the high half of them is narrowed. -/
theorem productHalves : Obligations.ProductHalves := by
  intro rd rs1 rs2 s
  have hhigh : s.ux rs1 * s.ux rs2 / s.modulus < s.modulus :=
    Nat.div_lt_of_lt_mul (Nat.mul_lt_mul'' (s.ux_lt_modulus rs1) (s.ux_lt_modulus rs2))
  refine ⟨?_, ?_, ?_, ?_⟩
  · exact completesX_of_putX rfl (trunc_trunc _ _) (trunc_mul_toNat _ _ _)
  · exact completesX_of_ofInt (exec_mulh rd rs1 rs2 s)
  · exact completesX_of_ofInt (exec_mulhsu rd rs1 rs2 s)
  · exact completesX_of_ofInt_natCast hhigh (exec_mulhu rd rs1 rs2 s)

/-- Settles O28: the quotient and the remainder are those of the cases of R236, for `XPRLEN` bits. -/
theorem signedDivision : Obligations.SignedDivision := by
  intro rd rs1 rs2 s
  dsimp only
  rw [s.neg_half_modulus]
  exact ⟨_, _, completesX_of_ofInt (exec_div rd rs1 rs2 s), completesX_of_ofInt (exec_rem rd rs1 rs2 s),
    signedDivision_cases s.cfg.xlen.bits (s.sx rs1) (s.sx rs2)⟩

/-- Settles O29: the unsigned quotient and remainder need no narrowing. -/
theorem unsignedDivision : Obligations.UnsignedDivision := by
  intro rd rs1 rs2 s
  have hq := divUnsigned_lt (s.ux rs2) (s.ux_lt_modulus rs1)
  have hr := (remUnsigned_le (s.ux rs1) (s.ux rs2)).trans_lt (s.ux_lt_modulus rs1)
  exact ⟨encR_funct7_funct3 rd rs1 rs2 0b0000001#7 0b101#3 0b0110011#7,
    encR_funct7_funct3 rd rs1 rs2 0b0000001#7 0b111#3 0b0110011#7, _, _,
    completesX_of_ofInt_natCast hq (exec_divu rd rs1 rs2 s), completesX_of_ofInt_natCast hr (exec_remu rd rs1 rs2 s),
    unsignedDivision_cases s.cfg.xlen.bits (s.ux rs1) (s.ux rs2)⟩

/-- Settles O30: on the low words, the same cases for 32 bits. -/
theorem wordDivision : Obligations.WordDivision := by
  intro rd rs1 rs2 s hx
  dsimp only
  rw [← s.readW_toInt rs1, ← s.readW_toInt rs2, ← s.readW_toNat rs1, ← s.readW_toNat rs2]
  obtain ⟨hzero, hoverflow, hgeneral⟩ := signedDivision_cases 32 (s.readW rs1).toInt (s.readW rs2).toInt
  exact ⟨_, _, _, _, completesX_of_putW_ofInt hx rfl, completesX_of_putW_ofInt hx rfl, completesX_of_putW_ofNat hx rfl,
    completesX_of_putW_ofNat hx rfl, hzero, hoverflow, hgeneral,
    unsignedDivision_cases 32 (s.readW rs1).toNat (s.readW rs2).toNat⟩

end Sys2Proof.Machine
end

section
/-! PROOFS. The rounding mode of an instruction (spec/45_fp_arithmetic.md R292, R293), and what an instruction that raises flags
writes (R294). -/

namespace Sys2Proof.Machine

/-! ### A dynamic rounding mode that `fsr` does not hold -/

theorem RMode.ofCode_of_le : ∀ {code : BitVec 3}, 5 ≤ code.toNat → RMode.ofCode code = none := by decide

/-- The dynamic mode is the one that `fsr` holds, if it holds one (R292). -/
theorem State.effRM_dynamic_of_le {s : State} (h : 5 ≤ s.fsrRM.toNat) : s.effRM 0b111#3 = none :=
  (if_pos rfl).trans (RMode.ofCode_of_le h)

/-- Settles O18: an instruction that the variant provides selects its mode first, and one that it does not provide raises the
same exception. -/
theorem invalidDynamicModeIllegal : Obligations.InvalidDynamicModeIllegal := by
  intro i s hfield hmode
  cases hvariant : i.variantOk s.cfg.xlen
  · exact illFormedIllegal i s (Instr.wellFormed_eq_false_iff.mpr (.inl hvariant))
  · obtain ⟨k, he⟩ := exec_of_rmField hfield hvariant
    rw [he, withRM_none (State.effRM_dynamic_of_le hmode)]

/-! ### Results that raise flags (R294) -/

theorem writesFFlags_putFFlags (s : State) (rd : Reg) (v : FReg) (fl : FFlags) :
    WritesFFlags rd v fl s ((s.writeF rd v).accrue fl).retire where
  kept := by constructor <;> rfl
  mem := by constructor <;> rfl
  x := rfl
  f := ⟨(newF_writeF_retire s rd v).others, (newF_writeF_retire s rd v).dest⟩
  fsr := (s.writeF rd v).readFsr_accrue fl

/-- An instruction that writes `f[rd]` and raises flags completes with them. -/
theorem completesFFlags_of_putFFlags {i : Instr} {rd : Reg} {v : FReg} {fl : FFlags} {s : State}
    (he : exec i s = putFFlags rd v fl s) : CompletesFFlags i rd v fl s :=
  ⟨_, he, writesFFlags_putFFlags s rd v fl, rfl⟩

theorem writesXFlags_putXFlags {s : State} {rd : Reg} {v : XWord} {fl : FFlags} (hv : trunc s.cfg.xlen v = v) :
    WritesXFlags rd v fl s ((s.writeX rd v).accrue fl).retire where
  kept := by constructor <;> simp
  mem := by constructor <;> simp
  x :=
    have h : NewX rd v s (s.writeX rd v).retire := newX_writeX_retire rfl rfl hv
    ⟨h.others, h.dest, h.zero⟩
  f := by simp
  fsr := ((s.writeX rd v).readFsr_accrue fl).trans (by simp [State.readFsr])

/-- An instruction that writes `x[rd]` and raises flags completes with them. -/
theorem completesXFlags_of_putXFlags {i : Instr} {rd : Reg} {v : XWord} {fl : FFlags} {s : State}
    (he : exec i s = putXFlags rd v fl s) (hv : trunc s.cfg.xlen v = v) : CompletesXFlags i rd v fl s :=
  ⟨_, he, writesXFlags_putXFlags hv, by simp [State.pcPlus4]⟩

section

variable {i : Instr} {rd : Reg} {rm : BitVec 3} {s : State} {m : RMode} {k : RMode → Result} {r : FResult}

/-- An instruction with a valid rounding mode completes with its single result. -/
theorem completesFFlags_of_withRM_putS (hm : s.effRM rm = some m) (he : exec i s = withRM i rm s k)
    (hk : k m = putS rd r s) : CompletesFFlags i rd (.s (r.bits.setWidth 32)) r.flags s :=
  completesFFlags_of_putFFlags ((he.trans (withRM_some hm)).trans hk)

/-- An instruction with a valid rounding mode completes with its double result. -/
theorem completesFFlags_of_withRM_putD (hm : s.effRM rm = some m) (he : exec i s = withRM i rm s k)
    (hk : k m = putD rd r s) : CompletesFFlags i rd (.d r.bits) r.flags s :=
  completesFFlags_of_putFFlags ((he.trans (withRM_some hm)).trans hk)

end

end Sys2Proof.Machine
end

section
/-! PROOFS. The exact results of the arithmetic on finite operands (spec/45_fp_arithmetic.md R303) as real numbers, and the
statements that tie the arithmetic and the fused instructions to them (R304 to R308, R311 to R315, R318 to R326). -/

namespace Sys2Proof.Machine

/-! ### Finite operands as rational numbers -/

/-- The rational number of a sign, a significand and an exponent. -/
def finRat (neg : Bool) (mant : Nat) (e : ℤ) : ℚ := (if neg then -1 else 1) * mant * 2 ^ e

/-- A pattern with a finite value has the sign of its sign field. -/
theorem exists_fin_of_toRat {f : Fmt} {a : Pattern} {x : ℚ} (h : (unpack f a).toRat = some x) :
    ∃ mant e, unpack f a = .fin (signField f a) mant e ∧ x = finRat (signField f a) mant e := by
  cases hv : unpack f a with
  | nan | inf => rw [hv] at h; cases h
  | fin neg mant e =>
    obtain rfl := unpack_sign.1 hv
    rw [hv] at h
    exact ⟨mant, e, rfl, (Option.some.inj h).symm⟩

theorem ne_nan_of_toRat {v : FVal} {x : ℚ} (h : v.toRat = some x) : v ≠ .nan := by
  rintro rfl
  cases h

theorem finRat_eq_signedBy (neg : Bool) (mant : Nat) (e : ℤ) :
    ((finRat neg mant e : ℚ) : ℝ) = signedBy neg (mant * 2 ^ e : ℝ) := by
  cases neg <;> simp [finRat]

theorem finRat_eq_zero_iff {neg : Bool} {mant : Nat} {e : ℤ} : finRat neg mant e = 0 ↔ mant = 0 := by
  have hpow : (2 : ℚ) ^ e ≠ 0 := by positivity
  cases neg <;> simp [finRat, hpow]

/-- A number that is not negative has no sign but where it is a zero. -/
theorem mant_eq_zero_of_finRat_nonneg {neg : Bool} {mant : Nat} {e : ℤ} (h : 0 ≤ finRat neg mant e) (hneg : neg = true) :
    mant = 0 := by
  subst hneg
  have hle : finRat true mant e ≤ 0 := by
    have : 0 ≤ (mant : ℚ) * 2 ^ e := by positivity
    simpa [finRat] using this
  exact finRat_eq_zero_iff.mp (hle.antisymm h)

theorem finRat_not (neg : Bool) (mant : Nat) (e : ℤ) : finRat (!neg) mant e = -finRat neg mant e := by
  cases neg <;> simp [finRat]

theorem finRat_xor (neg inv : Bool) (mant : Nat) (e : ℤ) :
    finRat (neg ^^ inv) mant e = (if inv then -1 else 1) * finRat neg mant e := by
  cases inv <;> simp [finRat_not]

theorem finRat_mul (na nb : Bool) (ma mb : Nat) (ea eb : ℤ) :
    finRat (na ^^ nb) (ma * mb) (ea + eb) = finRat na ma ea * finRat nb mb eb := by
  rw [finRat_xor]
  unfold finRat
  rw [zpow_add₀ two_ne_zero]
  push_cast
  ring

/-! ### Exact results as real numbers -/

/-- An exact result stands for the real number `x`; where that is zero, it is the zero with sign `neg`. -/
def Exact.IsReal (v : Exact) (x : ℝ) (neg : Bool) : Prop :=
  match v with
  | .zero n => x = 0 ∧ n = neg
  | .value n mag => ∃ y : ℝ, mag.Is y ∧ 0 < mag.num ∧ 0 < mag.den ∧ signedBy n y = x
  | _ => False

section

variable {v : Exact} {x : ℝ} {neg : Bool}

/-- A number that is not zero is delivered rounded (R301 step 7). -/
theorem Exact.IsReal.isRound (h : v.IsReal x neg) (hx : x ≠ 0) (f : Fmt) (tiny : Tininess) (m : RMode) :
    IsRound f tiny m x (deliver f tiny m v) := by
  cases v with
  | zero n => exact absurd h.1 hx
  | value n mag =>
    obtain ⟨y, hmag, hnum, hden, rfl⟩ := h
    exact roundTo_isRound f tiny m n hmag hnum hden
  | invalid | divZero | inf => exact h.elim

/-- Zero is delivered with its sign, and raises nothing. -/
theorem Exact.IsReal.givesZero (h : v.IsReal x neg) (hx : x = 0) (f : Fmt) (tiny : Tininess) (m : RMode) :
    GivesZero f (deliver f tiny m v) neg := by
  cases v with
  | zero n =>
    obtain ⟨-, rfl⟩ := h
    exact ⟨zeroBits_represents f n, rfl⟩
  | value n mag =>
    obtain ⟨y, hmag, hnum, hden, hy⟩ := h
    have hpos := hmag.pos hnum hden
    rw [← abs_signedBy n hpos.le, hy, hx, abs_zero] at hpos
    exact absurd hpos (lt_irrefl 0)
  | invalid | divZero | inf => exact h.elim

end

theorem isReal_ofFin (neg : Bool) (mant : Nat) (e : ℤ) : (Exact.ofFin neg mant e).IsReal (finRat neg mant e : ℚ) neg := by
  unfold Exact.ofFin
  split
  next h0 => exact ⟨by rw [finRat_eq_zero_iff.mpr h0, Rat.cast_zero], rfl⟩
  next h0 =>
    exact ⟨_, Mag.dyadic_is mant e, Mag.dyadic_num_pos h0 e, Mag.dyadic_den_pos mant e, (finRat_eq_signedBy ..).symm⟩

/-- An integer as a magnitude with its sign. -/
theorem signedBy_natAbs (n : ℤ) (x : ℝ) : signedBy (decide (n < 0)) ((n.natAbs : ℝ) * x) = n * x := by
  rw [← signedBy_mul]
  congr 1
  rw [Nat.cast_natAbs, Int.cast_abs]
  by_cases hn : n < 0
  · rw [decide_eq_true hn, abs_of_neg (by exact_mod_cast hn), signedBy_true, neg_neg]
  · rw [decide_eq_false hn, abs_of_nonneg (by exact_mod_cast not_lt.mp hn), signedBy_false]

section

variable (m : RMode) (na nb : Bool) (ma mb : Nat) (ea eb : ℤ)

/-- The exact sum: both operands aligned to the smaller exponent are added as integers. -/
theorem isReal_exactAdd : (exactAdd m (.fin na ma ea) (.fin nb mb eb)).IsReal
    ((finRat na ma ea + finRat nb mb eb : ℚ) : ℝ) (zeroSumNeg m na ma nb mb) := by
  generalize hsum : alignTo (min ea eb) na ma ea + alignTo (min ea eb) nb mb eb = sum
  have hvalue : (finRat na ma ea + finRat nb mb eb : ℚ) = sum * 2 ^ min ea eb := by
    rw [finRat, finRat, ← alignTo_value na ma (min_le_left ea eb), ← alignTo_value nb mb (min_le_right ea eb), ← hsum]
    push_cast
    ring
  rw [hvalue, exactAdd, hsum]
  split
  next h0 => exact ⟨by simp [h0], rfl⟩
  next h0 =>
    refine ⟨_, Mag.dyadic_is _ _, Mag.dyadic_num_pos (Int.natAbs_ne_zero.mpr h0) _, Mag.dyadic_den_pos _ _, ?_⟩
    rw [signedBy_natAbs]
    push_cast
    rfl

/-- The sign of an exact zero sum, by the values of the operands (R303). -/
theorem zeroSumNeg_eq (h : finRat na ma ea + finRat nb mb eb = 0) :
    zeroSumNeg m na ma nb mb = if finRat na ma ea = 0 ∧ na = nb then na else decide (m = .rdn) := by
  have hzero : ma = 0 → mb = 0 := fun h0 => by
    rwa [finRat_eq_zero_iff.mpr h0, zero_add, finRat_eq_zero_iff] at h
  simp only [zeroSumNeg, finRat_eq_zero_iff, and_iff_left_of_imp hzero, ← and_assoc]

theorem isReal_exactMul : (Exact.ofVal (exactMul (.fin na ma ea) (.fin nb mb eb))).IsReal
    ((finRat na ma ea * finRat nb mb eb : ℚ) : ℝ) (na ^^ nb) := by
  rw [← finRat_mul]
  exact isReal_ofFin ..

theorem isReal_exactDiv (hb : mb ≠ 0) : (exactDiv (.fin na ma ea) (.fin nb mb eb)).IsReal
    ((finRat na ma ea / finRat nb mb eb : ℚ) : ℝ) (na ^^ nb) := by
  simp only [exactDiv, if_neg hb]
  split
  next h0 => exact ⟨by rw [finRat_eq_zero_iff.mpr h0, zero_div, Rat.cast_zero], rfl⟩
  next h0 =>
    refine ⟨(ma * 2 ^ ea) / (mb * 2 ^ eb), ⟨by positivity, ?_⟩, by positivity, by positivity, ?_⟩
    · have h := ratio_scale ma mb (eb - ea)
      rw [neg_sub, zpow_sub₀ two_ne_zero] at h
      rw [if_neg Bool.false_ne_true]
      refine Eq.trans ?_ h.symm
      field_simp
    · rw [Rat.cast_div, finRat_eq_signedBy, finRat_eq_signedBy]
      cases na <;> cases nb <;> simp [neg_div, div_neg]

theorem isReal_exactSqrt (h : na = true → ma = 0) :
    (exactSqrt (.fin na ma ea)).IsReal (Real.sqrt (finRat na ma ea : ℚ)) na := by
  unfold exactSqrt
  dsimp only
  split
  next h0 => exact ⟨by rw [finRat_eq_zero_iff.mpr h0, Rat.cast_zero, Real.sqrt_zero], rfl⟩
  next h0 =>
    obtain rfl : na = false := Bool.eq_false_iff.mpr fun hneg => h0 (h hneg)
    obtain ⟨hpos, hratio⟩ := Mag.dyadic_is ma ea
    refine ⟨_, ⟨Real.sqrt_nonneg _, ?_⟩, Mag.dyadic_num_pos h0 ea, Mag.dyadic_den_pos ma ea, rfl⟩
    rw [finRat_eq_signedBy, if_pos rfl, signedBy_false, Real.sq_sqrt hpos]
    exact hratio

end

theorem FVal.negateIf_fin (inv neg : Bool) (mant : Nat) (e : ℤ) :
    (FVal.fin neg mant e).negateIf inv = .fin (neg ^^ inv) mant e := by
  cases inv <;> simp [FVal.negateIf, FVal.negate]

/-! ### The operations on finite operands -/

/-- An exact result that is a real number, delivered: rounded, or the zero with its sign. -/
theorem Exact.IsReal.result {v : Exact} {x : ℚ} {neg : Bool} {f : Fmt} {tiny : Tininess} {m : RMode} {r : FResult}
    (h : v.IsReal (x : ℝ) neg) (hr : r = deliver f tiny m v) :
    (x ≠ 0 → IsRound f tiny m (x : ℝ) r) ∧ (x = 0 → GivesZero f r neg) := by
  subst hr
  exact ⟨fun hx => h.isRound (Rat.cast_ne_zero.mpr hx) f tiny m, fun hx => h.givesZero (Rat.cast_eq_zero.mpr hx) f tiny m⟩

section

variable {f : Fmt} {a b : Pattern} {na nb : Bool} {ma mb : Nat} {ea eb : ℤ}
  (ha : unpack f a = .fin na ma ea) (hb : unpack f b = .fin nb mb eb) (tiny : Tininess) (m : RMode)

include ha

theorem fsqrt_of_fin : fsqrt f tiny m a = deliver f tiny m (exactSqrt (.fin na ma ea)) := by
  rw [fsqrt_of_not_nan (by simp [ha]), ha]

include hb

theorem arith2_of_fin (op : FVal → FVal → Exact) :
    arith2 f tiny m op a b = deliver f tiny m (op (.fin na ma ea) (.fin nb mb eb)) := by
  rw [arith2_of_not_nan (by simp [ha]) (by simp [hb]), ha, hb]

/-- The sum of finite operands, rounded, or a zero with the sign of R303. -/
theorem fadd_result :
    (finRat na ma ea + finRat nb mb eb ≠ 0 →
      IsRound f tiny m ((finRat na ma ea + finRat nb mb eb : ℚ) : ℝ) (fadd f tiny m a b)) ∧
    (finRat na ma ea + finRat nb mb eb = 0 →
      GivesZero f (fadd f tiny m a b) (if finRat na ma ea = 0 ∧ na = nb then na else decide (m = .rdn))) := by
  have h := (isReal_exactAdd m na nb ma mb ea eb).result (arith2_of_fin ha hb tiny m (exactAdd m))
  exact ⟨h.1, fun h0 => zeroSumNeg_eq m na nb ma mb ea eb h0 ▸ h.2 h0⟩

/-- The difference of finite operands is the sum with the second one negated. -/
theorem fsub_result :
    (finRat na ma ea - finRat nb mb eb ≠ 0 →
      IsRound f tiny m ((finRat na ma ea - finRat nb mb eb : ℚ) : ℝ) (fsub f tiny m a b)) ∧
    (finRat na ma ea - finRat nb mb eb = 0 →
      GivesZero f (fsub f tiny m a b) (if finRat na ma ea = 0 ∧ na ≠ nb then na else decide (m = .rdn))) := by
  have h := (isReal_exactAdd m na (!nb) ma mb ea eb).result
    (arith2_of_fin ha hb tiny m fun a b => exactAdd m a b.negate)
  have hsign := zeroSumNeg_eq m na (!nb) ma mb ea eb
  rw [finRat_not, ← sub_eq_add_neg] at h hsign
  refine ⟨h.1, fun h0 => ?_⟩
  simp only [← Bool.eq_not, ← hsign h0]
  exact h.2 h0

end

/-- The exact product and the addend of finite operands, each perhaps negated, rounded once, or a zero with the sign of R303. -/
theorem fma_result {f : Fmt} {a b c : Pattern} {na nb nc : Bool} {ma mb mc : Nat} {ea eb ec : ℤ}
    (ha : unpack f a = .fin na ma ea) (hb : unpack f b = .fin nb mb eb) (hc : unpack f c = .fin nc mc ec) (cfg : FPConfig)
    (m : RMode) (invP invC : Bool) :
    let v : ℚ := (if invP then -1 else 1) * (finRat na ma ea * finRat nb mb eb) + (if invC then -1 else 1) * finRat nc mc ec
    let signP := na ^^ nb ^^ invP
    let signC := nc ^^ invC
    (v ≠ 0 → IsRound f cfg.tininess m (v : ℝ) (fma f cfg m invP invC a b c)) ∧
    (v = 0 → GivesZero f (fma f cfg m invP invC a b c)
      (if finRat na ma ea * finRat nb mb eb = 0 ∧ signP = signC then signP else decide (m = .rdn))) := by
  intro v signP signC
  have hfma : fma f cfg m invP invC a b c =
      deliver f cfg.tininess m (exactAdd m (.fin signP (ma * mb) (ea + eb)) (.fin signC mc ec)) := by
    rw [fma_of_not_nan (by simp [ha]) (by simp [hb]) (by simp [hc]), ha, hb, hc]
    simp only [exactFma, exactMul, FVal.negateIf_fin]
    rfl
  have hv : v = finRat signP (ma * mb) (ea + eb) + finRat signC mc ec := by
    rw [finRat_xor _ invP, finRat_xor _ invC, finRat_mul]
  have hzero : finRat na ma ea * finRat nb mb eb = 0 ↔ finRat signP (ma * mb) (ea + eb) = 0 := by
    rw [← finRat_mul, finRat_eq_zero_iff, finRat_eq_zero_iff]
  have h := (isReal_exactAdd m signP signC (ma * mb) mc (ea + eb) ec).result hfma
  rw [hv]
  refine ⟨h.1, fun h0 => ?_⟩
  simp only [hzero, ← zeroSumNeg_eq m _ _ _ _ _ _ h0]
  exact h.2 h0

/-! ### The statements -/

/-- Settles O46: each instruction completes with its function's result, and on finite operands that is the exact value
delivered. -/
theorem fpArithmeticCompletes : Obligations.FpArithmeticCompletes := by
  refine ⟨fun rd rs1 rs2 rm s m hm => ?_, fun f tiny m a b x y hx hy => ?_⟩
  · have doneS {i k r} (he : exec i s = withRM i rm s k) (hk : k m = putS rd r s) := completesFFlags_of_withRM_putS hm he hk
    have doneD {i k r} (he : exec i s = withRM i rm s k) (hk : k m = putD rd r s) := completesFFlags_of_withRM_putD hm he hk
    dsimp only
    exact ⟨⟨doneS rfl rfl, doneS rfl rfl, doneS rfl rfl, doneS rfl rfl, doneS rfl rfl⟩,
      doneD rfl rfl, doneD rfl rfl, doneD rfl rfl, doneD rfl rfl, doneD rfl rfl⟩
  obtain ⟨ma, ea, ha, rfl⟩ := exists_fin_of_toRat hx
  obtain ⟨mb, eb, hb, rfl⟩ := exists_fin_of_toRat hy
  have hadd := fadd_result ha hb tiny m
  have hsub := fsub_result ha hb tiny m
  have hmul := (isReal_exactMul _ _ ma mb ea eb).result (arith2_of_fin ha hb tiny m fun a b => Exact.ofVal (exactMul a b))
  have hdiv (hy0 : finRat (signField f b) mb eb ≠ 0) :=
    (isReal_exactDiv _ _ ma mb ea eb (finRat_eq_zero_iff.not.mp hy0)).result (arith2_of_fin ha hb tiny m exactDiv)
  have hsqrt (hx0 : 0 ≤ finRat (signField f a) ma ea) :=
    isReal_exactSqrt (signField f a) ma ea (mant_eq_zero_of_finRat_nonneg hx0)
  refine ⟨hadd.1, hadd.2, hsub.1, hsub.2, hmul.1, hmul.2, fun hx0 hy0 => (hdiv hy0).1 (div_ne_zero hx0 hy0),
    fun hx0 hy0 => (hdiv hy0).2 (div_eq_zero_iff.mpr (.inl hx0)), fun hx0 => ?_, fun hx0 => ?_⟩
  · rw [fsqrt_of_fin ha tiny m]
    exact (hsqrt hx0.le).isRound (Real.sqrt_pos.mpr (Rat.cast_pos.mpr hx0)).ne' f tiny m
  · rw [fsqrt_of_fin ha tiny m]
    refine (hsqrt hx0.ge).givesZero ?_ f tiny m
    rw [hx0, Rat.cast_zero, Real.sqrt_zero]

/-- Settles O47: the fused operations add the exact product and the addend, and round once. -/
theorem fusedMultiplyAddCompletes : Obligations.FusedMultiplyAddCompletes := by
  refine ⟨fun rd rs1 rs2 rs3 rm s m hm => ?_, fun f cfg m np na a b c x y z hx hy hz => ?_⟩
  · have doneS {i k r} (he : exec i s = withRM i rm s k) (hk : k m = putS rd r s) := completesFFlags_of_withRM_putS hm he hk
    have doneD {i k r} (he : exec i s = withRM i rm s k) (hk : k m = putD rd r s) := completesFFlags_of_withRM_putD hm he hk
    dsimp only
    exact ⟨⟨doneS rfl rfl, doneS rfl rfl, doneS rfl rfl, doneS rfl rfl⟩,
      doneD rfl rfl, doneD rfl rfl, doneD rfl rfl, doneD rfl rfl⟩
  · obtain ⟨ma, ea, ha, rfl⟩ := exists_fin_of_toRat hx
    obtain ⟨mb, eb, hb, rfl⟩ := exists_fin_of_toRat hy
    obtain ⟨mc, ec, hc, rfl⟩ := exists_fin_of_toRat hz
    exact fma_result ha hb hc cfg m np na

end Sys2Proof.Machine
end

section
/-! PROOFS. NaN operands (spec/45_fp_arithmetic.md R297), invalid operations and infinite operands (R296, R303), and the
minimum and the maximum (R298, R309, R310, R316, R317). -/

namespace Sys2Proof.Machine

/-! ### NaN operands -/

section

variable {f : Fmt} {tiny : Tininess} {m : RMode} {a b c : Pattern} {r : FResult}

/-- An operation with a NaN operand gives the result of the NaN rule. -/
theorem arith2_of_nanResult (op : FVal → FVal → Exact) (h : nanResult f [a, b] = some r) : arith2 f tiny m op a b = r := by
  simp only [arith2, h]

theorem fsqrt_of_nanResult (h : nanResult f [a] = some r) : fsqrt f tiny m a = r := by
  simp only [fsqrt, h]

/-- The NaN rule takes the first signaling operand (R297). -/
theorem nanResult_of_signaling {ops : List Pattern} (h : ops.find? (isSignaling f) = some a) :
    nanResult f ops = some ⟨a ||| quietBit f, nvIf true⟩ := by
  simp only [nanResult, h]

/-- Without a signaling operand, the NaN rule takes the first quiet one (R297). -/
theorem nanResult_of_quiet {ops : List Pattern} (h : ops.find? (isSignaling f) = none) (hq : ops.find? (isNaN f) = some a) :
    nanResult f ops = some (FResult.quiet a) := by
  simp only [nanResult, h, hq, Option.map_some]

/-- A fused operation with a signaling operand gives that operand made quiet. -/
theorem fma_of_signaling {n : Pattern} (cfg : FPConfig) (np na : Bool) (h : [a, b, c].find? (isSignaling f) = some n) :
    fma f cfg m np na a b c = ⟨n ||| quietBit f, nvIf true⟩ := by
  simp only [fma, nanResult_of_signaling h]
  rfl

/-- A fused operation with a quiet operand gives that operand, with NV where the product is invalid and the configuration says
so (R302). -/
theorem fma_of_quiet {n : Pattern} (cfg : FPConfig) (np na : Bool) (h : [a, b, c].find? (isSignaling f) = none)
    (hq : [a, b, c].find? (isNaN f) = some n) :
    fma f cfg m np na a b c = ⟨n, nvIf (cfg.fmaInfZeroQnanNV && infTimesZero (unpack f a) (unpack f b))⟩ := by
  simp only [fma, nanResult_of_quiet h hq]
  rfl

end

/-- A product with a NaN is not one of an infinity and a zero. -/
theorem infTimesZero_of_isNaN {f : Fmt} {a b : Pattern} (h : isNaN f a = true ∨ isNaN f b = true) :
    infTimesZero (unpack f a) (unpack f b) = false := by
  rcases h with ha | hb
  · rw [unpack_of_isNaN ha]
    rfl
  · rw [unpack_of_isNaN hb]
    cases unpack f a <;> rfl

/-- Settles O48: the rule takes the first signaling operand, else the first quiet one, whatever the operation. -/
theorem nanPropagation : Obligations.NaNPropagation := by
  intro f cfg m np na a b c
  have two {r} (h : nanResult f [a, b] = some r) : fadd f cfg.tininess m a b = r ∧ fsub f cfg.tininess m a b = r ∧
      fmul f cfg.tininess m a b = r ∧ fdiv f cfg.tininess m a b = r :=
    ⟨arith2_of_nanResult _ h, arith2_of_nanResult _ h, arith2_of_nanResult _ h, arith2_of_nanResult _ h⟩
  have quietFma {n} (hq : isNaN f a = true ∨ isNaN f b = true) (h : [a, b, c].find? (isSignaling f) = none)
      (hn : [a, b, c].find? (isNaN f) = some n) : fma f cfg m np na a b c = FResult.quiet n := by
    rw [fma_of_quiet cfg np na h hn, infTimesZero_of_isNaN hq, Bool.and_false]
    rfl
  refine ⟨fun ha => ?_, fun ha hb => ?_, fun ha hb hc => ?_,
    fun ha hb hc => ⟨fun qa => ?_, fun qa qb => ?_, fun qa qb qc => ?_⟩⟩
  · obtain ⟨hadd, hsub, hmul, hdiv⟩ := two (nanResult_of_signaling (a := a) (by simp [ha]))
    exact ⟨hadd, hsub, hmul, hdiv, fsqrt_of_nanResult (nanResult_of_signaling (by simp [ha])),
      fma_of_signaling cfg np na (by simp [ha])⟩
  · obtain ⟨hadd, hsub, hmul, hdiv⟩ := two (nanResult_of_signaling (a := b) (by simp [ha, hb]))
    exact ⟨hadd, hsub, hmul, hdiv, fma_of_signaling cfg np na (by simp [ha, hb])⟩
  · exact fma_of_signaling cfg np na (by simp [ha, hb, hc])
  · obtain ⟨hadd, hsub, hmul, hdiv⟩ := two (nanResult_of_quiet (a := a) (by simp [ha, hb]) (by simp [qa]))
    exact ⟨hadd, hsub, hmul, hdiv, fsqrt_of_nanResult (nanResult_of_quiet (by simp [ha]) (by simp [qa])),
      quietFma (.inl qa) (by simp [ha, hb, hc]) (by simp [qa])⟩
  · obtain ⟨hadd, hsub, hmul, hdiv⟩ := two (nanResult_of_quiet (a := b) (by simp [ha, hb]) (by simp [qa, qb]))
    exact ⟨hadd, hsub, hmul, hdiv, quietFma (.inr qb) (by simp [ha, hb, hc]) (by simp [qa, qb])⟩
  · exact fma_of_quiet cfg np na (by simp [ha, hb, hc]) (by simp [qa, qb, qc])

/-! ### Exact results with infinite operands (R303) -/

theorem FVal.negateIf_inf (inv neg : Bool) : (FVal.inf neg).negateIf inv = .inf (neg ^^ inv) := by
  cases inv <;> simp [FVal.negateIf, FVal.negate]

theorem FVal.negateIf_eq_nan_iff {v : FVal} {inv : Bool} : v.negateIf inv = .nan ↔ v = .nan := by
  cases inv <;> cases v <;> simp [FVal.negateIf, FVal.negate]

theorem FVal.negateIf_eq_inf_iff {v : FVal} {inv neg : Bool} : v.negateIf inv = .inf neg ↔ v = .inf (neg ^^ inv) := by
  cases inv <;> cases v <;> simp [FVal.negateIf, FVal.negate, Bool.not_eq_eq_eq_not]

theorem exactAdd_inf_not (m : RMode) (n : Bool) : exactAdd m (.inf n) (.inf (!n)) = .invalid := by
  cases n <;> rfl

/-- A sum with an infinity is that infinity, unless the other operand is the opposite one. -/
theorem exactAdd_inf (m : RMode) {n : Bool} {v : FVal} (hv : v ≠ .nan) (hn : v ≠ .inf (!n)) :
    exactAdd m (.inf n) v = .inf n ∧ exactAdd m v (.inf n) = .inf n := by
  cases v with
  | nan => exact absurd rfl hv
  | fin => exact ⟨rfl, rfl⟩
  | inf n' =>
    obtain rfl : n' = n := by simpa [Bool.eq_not] using hn
    exact ⟨if_pos rfl, if_pos rfl⟩

theorem exactMul_comm (v w : FVal) : exactMul v w = exactMul w v := by
  cases v <;> cases w <;> simp only [exactMul, Bool.xor_comm, mul_comm, add_comm]

/-- An operand that is an infinity or a number that is not zero, with its sign. -/
def FVal.IsNonzero (v : FVal) (neg : Bool) : Prop := v = .inf neg ∨ ∃ k e, k ≠ 0 ∧ v = .fin neg k e

theorem FVal.IsNonzero.ne_nan {v : FVal} {neg : Bool} (h : v.IsNonzero neg) : v ≠ .nan := by
  rcases h with rfl | ⟨k, e, -, rfl⟩ <;> simp

/-- The product of an infinity and an operand that is not zero. -/
theorem exactMul_inf {v : FVal} {n n' : Bool} (h : v.IsNonzero n') : exactMul (.inf n) v = some (.inf (n ^^ n')) := by
  rcases h with rfl | ⟨k, e, hk, rfl⟩
  · rfl
  · exact if_neg hk

theorem exactFma_of_inf {m : RMode} {np na n : Bool} {u v w : FVal} (h : exactMul u v = some (.inf n)) :
    exactFma m np na u v w = exactAdd m (.inf (n ^^ np)) (w.negateIf na) := by
  simp only [exactFma, h, FVal.negateIf_inf]

/-- A finite product is lost in an infinite addend. -/
theorem exactFma_fin_inf (m : RMode) (np na na' nb n : Bool) (ma mb : Nat) (ea eb : ℤ) :
    exactFma m np na' (.fin na ma ea) (.fin nb mb eb) (.inf n) = .inf (n ^^ na') := by
  simp only [exactFma, exactMul, FVal.negateIf_fin, FVal.negateIf_inf, exactAdd]

theorem exactDiv_zero {k : Nat} (hk : k ≠ 0) (n n' : Bool) (e e' : ℤ) :
    exactDiv (.fin n k e) (.fin n' 0 e') = .divZero (n ^^ n') :=
  if_neg hk

/-! ### The results they deliver -/

theorem givesInf_of_deliver {f : Fmt} {tiny : Tininess} {m : RMode} {neg : Bool} {r : FResult}
    (h : r = deliver f tiny m (.inf neg)) : GivesInf f r neg := by
  subst h
  exact ⟨infBits_represents f neg, rfl⟩

theorem givesZero_of_deliver {f : Fmt} {tiny : Tininess} {m : RMode} {neg : Bool} {r : FResult}
    (h : r = deliver f tiny m (.zero neg)) : GivesZero f r neg := by
  subst h
  exact ⟨zeroBits_represents f neg, rfl⟩

section

variable {f : Fmt} {tiny : Tininess} {m : RMode} {a b c : Pattern} {u v w : FVal} {r : Exact}

theorem ne_nan_of_isNaN_eq_false (h : isNaN f a = false) : unpack f a ≠ .nan := fun hv => by
  rw [isNaN_iff.mpr hv] at h
  cases h

/-- An operation on operands that are no NaN, by its exact result. -/
theorem arith2_of_exact {op : FVal → FVal → Exact} (ha : unpack f a = u) (hb : unpack f b = v) (hu : u ≠ .nan)
    (hv : v ≠ .nan) (h : op u v = r) : arith2 f tiny m op a b = deliver f tiny m r := by
  subst ha hb h
  exact arith2_of_not_nan hu hv

theorem fadd_of_exact (ha : unpack f a = u) (hb : unpack f b = v) (hu : u ≠ .nan) (hv : v ≠ .nan)
    (h : exactAdd m u v = r) : fadd f tiny m a b = deliver f tiny m r :=
  arith2_of_exact ha hb hu hv h

theorem fsub_of_exact (ha : unpack f a = u) (hb : unpack f b = v) (hu : u ≠ .nan) (hv : v ≠ .nan)
    (h : exactAdd m u (v.negateIf true) = r) : fsub f tiny m a b = deliver f tiny m r :=
  arith2_of_exact (op := fun a b => exactAdd m a b.negate) ha hb hu hv h

theorem fdiv_of_exact (ha : unpack f a = u) (hb : unpack f b = v) (hu : u ≠ .nan) (hv : v ≠ .nan)
    (h : exactDiv u v = r) : fdiv f tiny m a b = deliver f tiny m r :=
  arith2_of_exact ha hb hu hv h

theorem fsqrt_of_exact (ha : unpack f a = u) (hu : u ≠ .nan) (h : exactSqrt u = r) :
    fsqrt f tiny m a = deliver f tiny m r := by
  subst ha h
  exact fsqrt_of_not_nan hu

theorem fma_of_exact {cfg : FPConfig} {np na : Bool} (ha : unpack f a = u) (hb : unpack f b = v) (hc : unpack f c = w)
    (hu : u ≠ .nan) (hv : v ≠ .nan) (hw : w ≠ .nan) (h : exactFma m np na u v w = r) :
    fma f cfg m np na a b c = deliver f cfg.tininess m r ∧ fma f cfg m np na b a c = deliver f cfg.tininess m r := by
  subst ha hb hc
  refine ⟨(fma_of_not_nan hu hv hw).trans (by rw [h]), (fma_of_not_nan hv hu hw).trans ?_⟩
  rw [← h, exactFma, exactMul_comm, exactFma]

/-- A product, of either order. -/
theorem fmul_of_exact {p : Option FVal} (ha : unpack f a = u) (hb : unpack f b = v) (hu : u ≠ .nan) (hv : v ≠ .nan)
    (h : exactMul u v = p) :
    fmul f tiny m a b = deliver f tiny m (Exact.ofVal p) ∧ fmul f tiny m b a = deliver f tiny m (Exact.ofVal p) :=
  ⟨arith2_of_exact ha hb hu hv (by rw [h]), arith2_of_exact hb ha hv hu (by rw [exactMul_comm, h])⟩

end

/-! ### The statement -/

/-- Settles O49: each clause is a case of the exact operation. -/
theorem invalidOperations : Obligations.InvalidOperations := by
  refine ⟨rfl, rfl, fun f tiny m a b => ?_⟩
  have inf {n} : FVal.inf n ≠ .nan := FVal.noConfusion
  have fin {n k e} : FVal.fin n k e ≠ .nan := FVal.noConfusion
  intro bad
  refine ⟨fun n ha hb => ?_, fun n ha hb => ?_, fun n n' e ha hb => ?_, fun n n' ha hb => ?_, fun n n' e e' ha hb => ?_,
    fun k e hk ha => ?_, fun ha => ?_, fun n k e n' e' hk ha hb => ?_, fun n ha hb hn => ?_, fun n ha hb hn => ?_,
    fun n n' ha hb => ?_, fun n n' k e ha hb => ?_, fun ha => ?_, fun cfg np na c hc => ⟨fun n n' e ha hb => ?_,
    fun n n' ha hb => ⟨fun hinf => ?_, fun hinf => ?_⟩, fun x y n ha hb hinf => ?_⟩⟩
  -- the invalid operations
  · exact fadd_of_exact ha hb inf inf (exactAdd_inf_not m n)
  · exact fsub_of_exact ha hb inf inf (exactAdd_inf_not m n)
  · exact fmul_of_exact ha hb inf fin rfl
  · exact fdiv_of_exact ha hb inf inf rfl
  · exact fdiv_of_exact ha hb fin fin rfl
  · exact fsqrt_of_exact ha fin (if_neg hk)
  · exact fsqrt_of_exact ha inf rfl
  -- division by zero
  · rw [fdiv_of_exact ha hb fin fin (exactDiv_zero hk ..)]
    exact ⟨infBits_represents f _, rfl⟩
  -- infinite operands
  · have hb' := ne_nan_of_isNaN_eq_false hb
    obtain ⟨hab, hba⟩ := exactAdd_inf m hb' hn
    exact ⟨givesInf_of_deliver (fadd_of_exact ha rfl inf hb' hab), givesInf_of_deliver (fadd_of_exact rfl ha hb' inf hba)⟩
  · have hb' := ne_nan_of_isNaN_eq_false hb
    have hab := (exactAdd_inf m (FVal.negateIf_eq_nan_iff.not.mpr hb') (n := n) (v := (unpack f b).negateIf true)
      (FVal.negateIf_eq_inf_iff.not.mpr (by simpa using hn))).1
    have hba := (exactAdd_inf m hb' (n := !n) (by simpa using hn)).2
    exact ⟨givesInf_of_deliver (fsub_of_exact ha rfl inf hb' hab), givesInf_of_deliver (fsub_of_exact rfl ha hb' inf hba)⟩
  · obtain ⟨hab, hba⟩ := fmul_of_exact (tiny := tiny) (m := m) ha rfl inf (FVal.IsNonzero.ne_nan hb) (exactMul_inf hb)
    exact ⟨givesInf_of_deliver hab, givesInf_of_deliver hba⟩
  · exact ⟨givesInf_of_deliver (fdiv_of_exact ha hb inf fin rfl),
      givesZero_of_deliver (fdiv_of_exact hb ha fin inf (Bool.xor_comm n n' ▸ rfl))⟩
  · exact givesInf_of_deliver (fsqrt_of_exact ha inf rfl)
  -- the fused operations
  · exact fma_of_exact ha hb rfl inf fin (ne_nan_of_isNaN_eq_false hc) rfl
  · refine fma_of_exact (cfg := cfg) (r := .invalid) ha rfl hinf inf (FVal.IsNonzero.ne_nan hb) inf
      ((exactFma_of_inf (exactMul_inf hb)).trans ?_)
    rw [FVal.negateIf_eq_inf_iff.mpr rfl]
    exact exactAdd_inf_not ..
  · have hc' := ne_nan_of_isNaN_eq_false hc
    have hsum := (exactAdd_inf m (FVal.negateIf_eq_nan_iff (inv := na).not.mpr hc') (FVal.negateIf_eq_inf_iff.not.mpr hinf)).1
    obtain ⟨hab, hba⟩ := fma_of_exact (cfg := cfg) ha rfl rfl inf (FVal.IsNonzero.ne_nan hb) hc'
      ((exactFma_of_inf (exactMul_inf hb)).trans hsum)
    exact ⟨givesInf_of_deliver hab, givesInf_of_deliver hba⟩
  · obtain ⟨ma, ea, ha, -⟩ := exists_fin_of_toRat ha
    obtain ⟨mb, eb, hb, -⟩ := exists_fin_of_toRat hb
    exact givesInf_of_deliver (fma_of_exact ha hb hinf fin fin inf (exactFma_fin_inf ..)).1

/-! ### Minimum and maximum (R298) -/

theorem FVal.lt_asymm {v w : FVal} (h : v.lt w = true) : w.lt v = false := by
  cases v <;> cases w
  case fin.fin =>
    simp only [FVal.lt, decide_eq_true_iff, decide_eq_false_iff_not, not_lt, min_comm] at h ⊢
    exact h.le
  case inf.inf na nb =>
    cases na <;> cases nb <;> cases h
    rfl
  case inf.fin neg _ _ _ | fin.inf _ _ _ neg =>
    cases neg <;> cases h
    rfl
  all_goals cases h

theorem FVal.lt_irrefl (v : FVal) : v.lt v = false := by
  cases h : v.lt v
  · rfl
  · exact h.symm.trans (FVal.lt_asymm h)

/-- What is less or more than an operand is no NaN. -/
theorem FVal.ne_nan_of_lt {v w : FVal} (h : v.lt w = true) : v ≠ .nan ∧ w ≠ .nan := by
  constructor <;> rintro rfl
  · cases h
  · cases v <;> cases h

section

variable {f : Fmt} {a b : Pattern}

/-- An operation with a signaling operand gives the first one made quiet. -/
theorem minMaxNaN_of_signaling {n : Pattern} (h : [a, b].find? (isSignaling f) = some n) :
    minMaxNaN f a b = some ⟨n ||| quietBit f, nvIf true⟩ := by
  simp only [minMaxNaN, h]

/-- Quiet operands give way to numbers. -/
theorem minMaxNaN_of_quiet (h : [a, b].find? (isSignaling f) = none) :
    minMaxNaN f a b =
      if isNaN f a then some (FResult.quiet (if isNaN f b then a else b))
      else if isNaN f b then some (FResult.quiet a) else none := by
  simp only [minMaxNaN, h]

theorem minMaxNaN_of_not_nan (ha : unpack f a ≠ .nan) (hb : unpack f b ≠ .nan) : minMaxNaN f a b = none := by
  obtain ⟨qa, sa⟩ := isSignaling_of_not_nan ha
  obtain ⟨qb, sb⟩ := isSignaling_of_not_nan hb
  rw [minMaxNaN_of_quiet (by simp [sa, sb])]
  simp [qa, qb]

theorem fmin_fmax_of_minMaxNaN {r : FResult} (cfg : FPConfig) (h : minMaxNaN f a b = some r) :
    fmin f cfg a b = r ∧ fmax f cfg a b = r := by
  simp only [fmin, fmax, h, and_self]

/-- Ordered operands. -/
theorem fmin_fmax_of_lt (cfg : FPConfig) (h : (unpack f a).lt (unpack f b) = true) :
    fmin f cfg a b = FResult.quiet a ∧ fmax f cfg a b = FResult.quiet b ∧
    fmin f cfg b a = FResult.quiet a ∧ fmax f cfg b a = FResult.quiet b := by
  obtain ⟨ha, hb⟩ := FVal.ne_nan_of_lt h
  simp [fmin, fmax, minMaxNaN_of_not_nan ha hb, minMaxNaN_of_not_nan hb ha, h, FVal.lt_asymm h]

/-- One operand twice, a quiet NaN or a number. -/
theorem fmin_fmax_self (cfg : FPConfig) (h : isSignaling f a = false) :
    fmin f cfg a a = FResult.quiet a ∧ fmax f cfg a a = FResult.quiet a := by
  cases hq : isNaN f a
  · have hv := ne_nan_of_isNaN_eq_false hq
    have hmixed : mixedZeros (unpack f a) (unpack f a) = false := by
      cases unpack f a <;> simp [mixedZeros]
    simp [fmin, fmax, minMaxNaN_of_not_nan hv hv, FVal.lt_irrefl, hmixed]
  · apply fmin_fmax_of_minMaxNaN
    rw [minMaxNaN_of_quiet (by simp [h])]
    simp [hq]

/-- Zeros of different signs: the zero that the configuration names for their order. -/
theorem fmin_fmax_of_mixedZeros (cfg : FPConfig) (ha : (unpack f a).toRat = some 0) (hb : (unpack f b).toRat = some 0)
    (hsign : signField f a ≠ signField f b) :
    fmin f cfg a b = FResult.quiet
      (zeroBits f (if signField f a then cfg.zeroPick.minNegPos else cfg.zeroPick.minPosNeg)) ∧
    fmax f cfg a b = FResult.quiet
      (zeroBits f (if signField f a then cfg.zeroPick.maxNegPos else cfg.zeroPick.maxPosNeg)) := by
  obtain ⟨ma, ea, hva, hma⟩ := exists_fin_of_toRat ha
  obtain ⟨mb, eb, hvb, hmb⟩ := exists_fin_of_toRat hb
  obtain rfl := finRat_eq_zero_iff.mp hma.symm
  obtain rfl := finRat_eq_zero_iff.mp hmb.symm
  simp [fmin, fmax, minMaxNaN_of_not_nan (ne_nan_of_toRat ha) (ne_nan_of_toRat hb), hva, hvb, FVal.lt, alignTo, mixedZeros,
    hsign]

/-- Without a signaling operand nothing is raised. -/
theorem fmin_fmax_flags (cfg : FPConfig) (h : [a, b].find? (isSignaling f) = none) :
    (fmin f cfg a b).flags = FFlags.none ∧ (fmax f cfg a b).flags = FFlags.none := by
  have hnan {r} (hr : minMaxNaN f a b = some r) : r.flags = FFlags.none := by
    rw [minMaxNaN_of_quiet h] at hr
    split_ifs at hr <;> cases hr <;> rfl
  cases hr : minMaxNaN f a b with
  | some r =>
    obtain ⟨hmin, hmax⟩ := fmin_fmax_of_minMaxNaN cfg hr
    exact ⟨hmin ▸ hnan hr, hmax ▸ hnan hr⟩
  | none =>
    simp only [fmin, fmax, hr]
    constructor <;> split_ifs <;> rfl

/-- What FMIN and FMAX give, for operands of every kind (R298, R309, R310). -/
theorem fmin_fmax_results (f : Fmt) (cfg : FPConfig) (a b : Pattern) :
    let lo := fmin f cfg a b
    let hi := fmax f cfg a b
    (isSignaling f a = true → lo = ⟨a ||| quietBit f, nvIf true⟩ ∧ hi = lo) ∧
    (isSignaling f a = false → isSignaling f b = true → lo = ⟨b ||| quietBit f, nvIf true⟩ ∧ hi = lo) ∧
    (isSignaling f a = false → isSignaling f b = false →
      lo.flags = FFlags.none ∧ hi.flags = FFlags.none ∧
      (isNaN f a = true → lo.bits = (if isNaN f b then a else b) ∧ hi.bits = lo.bits) ∧
      (isNaN f a = false → isNaN f b = true → lo.bits = a ∧ hi.bits = a) ∧
      ((unpack f a).lt (unpack f b) = true → lo.bits = a ∧ hi.bits = b) ∧
      ((unpack f b).lt (unpack f a) = true → lo.bits = b ∧ hi.bits = a) ∧
      (a = b → lo.bits = a ∧ hi.bits = a) ∧
      ((unpack f a).toRat = some 0 → (unpack f b).toRat = some 0 → signField f a ≠ signField f b →
        lo.bits = zeroBits f (if signField f a then cfg.zeroPick.minNegPos else cfg.zeroPick.minPosNeg) ∧
        hi.bits = zeroBits f (if signField f a then cfg.zeroPick.maxNegPos else cfg.zeroPick.maxPosNeg))) := by
  intro lo hi
  have both {r} (h : minMaxNaN f a b = some r) : lo = r ∧ hi = r := fmin_fmax_of_minMaxNaN cfg h
  refine ⟨fun ha => ?_, fun ha hb => ?_, fun ha hb => ?_⟩
  · obtain ⟨hlo, hhi⟩ := both (minMaxNaN_of_signaling (n := a) (by simp [ha]))
    exact ⟨hlo, hhi.trans hlo.symm⟩
  · obtain ⟨hlo, hhi⟩ := both (minMaxNaN_of_signaling (n := b) (by simp [ha, hb]))
    exact ⟨hlo, hhi.trans hlo.symm⟩
  · have hfind : [a, b].find? (isSignaling f) = none := by simp [ha, hb]
    have hquiet := minMaxNaN_of_quiet hfind
    obtain ⟨hflo, hfhi⟩ := fmin_fmax_flags cfg hfind
    refine ⟨hflo, hfhi, fun qa => ?_, fun qa qb => ?_, fun h => ?_, fun h => ?_, fun h => ?_, fun za zb hsign => ?_⟩
    · rw [qa] at hquiet
      obtain ⟨hlo, hhi⟩ := both hquiet
      rw [hlo, hhi]
      exact ⟨rfl, rfl⟩
    · rw [qa, qb] at hquiet
      obtain ⟨hlo, hhi⟩ := both hquiet
      rw [hlo, hhi]
      exact ⟨rfl, rfl⟩
    · obtain ⟨hlo, hhi, -⟩ := fmin_fmax_of_lt cfg h
      exact ⟨congrArg _ hlo, congrArg _ hhi⟩
    · obtain ⟨-, -, hlo, hhi⟩ := fmin_fmax_of_lt cfg h
      exact ⟨congrArg _ hlo, congrArg _ hhi⟩
    · subst h
      obtain ⟨hlo, hhi⟩ := fmin_fmax_self cfg ha
      exact ⟨congrArg _ hlo, congrArg _ hhi⟩
    · obtain ⟨hlo, hhi⟩ := fmin_fmax_of_mixedZeros cfg za zb hsign
      exact ⟨congrArg _ hlo, congrArg _ hhi⟩

end

theorem zeroBits_single (neg : Bool) : zeroBits .single neg = if neg then 0x80000000#64 else 0#64 := by
  cases neg <;> rfl

theorem zeroBits_double (neg : Bool) : zeroBits .double neg = if neg then 0x8000000000000000#64 else 0#64 := by
  cases neg <;> rfl

/-- Settles O53: the instructions write the results of FMIN and FMAX in either format. -/
theorem minimumAndMaximum : Obligations.MinimumAndMaximum := by
  intro rd rs1 rs2 s
  have hsingle := fmin_fmax_results .single s.cfg.fp (s.patS 1 rs1) (s.patS 2 rs2)
  have hdouble := fmin_fmax_results .double s.cfg.fp (s.patD 1 rs1) (s.patD 2 rs2)
  simp only [zeroBits_single] at hsingle
  simp only [zeroBits_double] at hdouble
  exact ⟨⟨_, _, completesFFlags_of_putFFlags rfl, completesFFlags_of_putFFlags rfl, hsingle⟩,
    ⟨_, _, completesFFlags_of_putFFlags rfl, completesFFlags_of_putFFlags rfl, hdouble⟩⟩

end Sys2Proof.Machine
end

section
/-! PROOFS. Rounding a value that the format holds (spec/45_fp_arithmetic.md R291, R295 d and e): it is cut exactly at its last
bit, whatever the mode, and the fields packed are those of its pattern. -/

namespace Sys2Proof.Machine

/-! ### The fields of a pattern -/

/-- A pattern of the format is its three fields, packed. -/
theorem packBits_of_fields {f : Fmt} {b : Pattern} (h : f.IsPattern b) :
    packBits f (signField f b) (expField f b * 2 ^ f.fracBits + fracField f b) = b := by
  have hbit : (if signField f b then 2 ^ (f.width - 1) else 0) = 2 ^ (f.width - 1) * (b.toNat / 2 ^ (f.width - 1) % 2) := by
    rw [signField, BitVec.getLsbD, Nat.testBit_eq_decide_div_mod_eq]
    rcases Nat.mod_two_eq_zero_or_one (b.toNat / 2 ^ (f.width - 1)) with h0 | h0 <;> simp [h0]
  apply BitVec.eq_of_toNat_eq
  unfold Fmt.IsPattern at h
  rw [packBits_toNat, hbit]
  all_goals
    unfold expField fracField
    cases f <;> simp only [Fmt.width, Fmt.fracBits, Fmt.expBits] at * <;> omega

/-- The finite patterns: the subnormal ones with the zeros, and the normal ones. -/
theorem unpack_fin_cases {f : Fmt} {b : Pattern} {neg : Bool} {mant : Nat} {e : ℤ} (h : unpack f b = .fin neg mant e) :
    (expField f b = 0 ∧ mant = fracField f b ∧ e = f.emin - f.fracBits) ∨
    (0 < expField f b ∧ expField f b < f.expMax ∧ mant = 2 ^ f.fracBits + fracField f b ∧
      e = expField f b - f.bias - f.fracBits) := by
  have hlt : expField f b < f.expMax + 1 := by
    rw [Fmt.expMax, Nat.sub_add_cancel Nat.one_le_two_pow]
    exact Nat.mod_lt _ (Nat.two_pow_pos _)
  unfold unpack at h
  dsimp only at h
  split at h
  next => split at h <;> cases h
  next hmax =>
    split at h <;> cases h
    next h0 => exact .inl ⟨h0, rfl, rfl⟩
    next h0 => exact .inr ⟨by omega, by omega, rfl, rfl⟩

theorem fracField_lt (f : Fmt) (b : Pattern) : fracField f b < 2 ^ f.fracBits := Nat.mod_lt _ (Nat.two_pow_pos _)

/-! ### Exact cuts -/

theorem two_zpow_le_mul_iff {n k : ℕ} {q : ℤ} : (2 : ℝ) ^ (k + q) ≤ n * 2 ^ q ↔ 2 ^ k ≤ n := by
  rw [two_zpow_add, mul_le_mul_iff_left₀ (two_zpow_pos q)]
  norm_cast

theorem mul_lt_two_zpow_iff {n k : ℕ} {q : ℤ} : (n : ℝ) * 2 ^ q < 2 ^ (k + q) ↔ n < 2 ^ k := by
  rw [two_zpow_add, mul_lt_mul_iff_left₀ (two_zpow_pos q)]
  norm_cast

section

variable {v : Mag} {x : ℝ} (h : v.Is x) (hn : 0 < v.num) (hd : 0 < v.den)

include h hd

/-- A whole number of steps is cut exactly, and rounding keeps it. -/
theorem Mag.cut_of_eq_mul {k : Nat} {q : ℤ} (hx : x = k * 2 ^ q) :
    (v.cut q).exact = true ∧ ∀ m neg, (v.cut q).round m neg = k := by
  have hcut := Mag.cut_is h hd q
  rw [hx, mul_div_cancel_right₀ _ (two_zpow_pos q).ne'] at hcut
  have hle : (v.cut q).whole ≤ k := by exact_mod_cast hcut.whole_le
  have hlt : k < (v.cut q).whole + 1 := by exact_mod_cast hcut.lt_whole_add_one
  have hexact := hcut.exact_iff.mpr (by rw [show k = (v.cut q).whole by omega])
  exact ⟨hexact, fun m neg => by exact_mod_cast (hcut.round_eq_iff m neg).mpr hexact⟩

/-- A whole number of steps is a whole number of smaller ones. -/
theorem Mag.cut_exact_of_le {k : Nat} {q q' : ℤ} (hx : x = k * 2 ^ q) (hq : q' ≤ q) : (v.cut q').exact = true := by
  refine (Mag.cut_of_eq_mul h hd (k := k * 2 ^ (q - q').toNat) ?_).1
  rw [hx, Nat.cast_mul, Nat.cast_pow, Nat.cast_ofNat, ← zpow_natCast, mul_assoc, ← two_zpow_add]
  congr 2
  omega

include hn

/-- The exponent of a magnitude is that of its binade. -/
theorem Mag.log2_eq {e : ℤ} (hlo : 2 ^ e ≤ x) (hhi : x < 2 ^ (e + 1)) : v.log2 = e := by
  obtain ⟨hlo', hhi'⟩ := Mag.log2_spec h hn hd
  have h1 := (binade_lt_iff hlo hhi _).mp hhi'
  have h2 := (binade_lt_iff hlo' hhi' _).mp hhi
  omega

/-- Rounding that is exact keeps the exponent. -/
theorem Mag.roundedLog2_of_exact {f : Fmt} {m : RMode} {neg : Bool} (hexact : (v.cut (v.log2 - f.fracBits)).exact = true) :
    v.roundedLog2 f m neg = v.log2 := by
  have hx : v.rounded f m neg = x := (Mag.round_mul_eq_iff h hd m neg _).mpr hexact
  obtain ⟨hlo, hhi⟩ := Mag.roundedLog2_spec h hn hd f m neg
  rw [hx] at hlo hhi
  exact (Mag.log2_eq h hn hd hlo hhi).symm

variable {f : Fmt} (tiny : Tininess) (m : RMode) (neg : Bool)

/-- Rounding a number in the normal range that is exact at the precision of the format keeps its value. -/
theorem roundTo_of_exact (hexact : (v.cut (v.log2 - f.fracBits)).exact = true) (hmin : f.emin ≤ v.log2)
    (hmax : v.log2 ≤ f.emax) :
    roundTo f tiny m neg v =
        FResult.quiet (packBits f neg ((v.log2 + f.bias).toNat * 2 ^ f.fracBits + (v.steps f m neg - 2 ^ f.fracBits))) ∧
      f.Represents (roundTo f tiny m neg v).bits neg (signedBy neg x) := by
  have hexp := Mag.roundedLog2_of_exact h hn hd (m := m) (neg := neg) hexact
  have hnot : f.tinyAt tiny v.log2 (v.roundedLog2 f m neg) = false := by
    rw [hexp]
    cases tiny <;> exact decide_eq_false hmin.not_gt
  have hround := roundTo_of_normal (hexp.trans_le hmax) hnot
  have hrep := represents_rounded h hn hd (m := m) (neg := neg) (hmin.trans_eq hexp.symm) (hexp.trans_le hmax)
  rw [show v.rounded f m neg = x from (Mag.round_mul_eq_iff h hd m neg _).mpr hexact] at hrep
  rw [hround, hexact]
  exact ⟨rfl, hrep⟩

/-- Rounding a normal number of the format keeps it. -/
theorem roundTo_normal {n : Nat} {e : ℤ} (hx : x = n * 2 ^ (e - f.fracBits)) (hlo : 2 ^ f.fracBits ≤ n)
    (hhi : n < 2 ^ (f.fracBits + 1)) (hmin : f.emin ≤ e) (hmax : e ≤ f.emax) :
    roundTo f tiny m neg v =
      FResult.quiet (packBits f neg ((e + f.bias).toNat * 2 ^ f.fracBits + (n - 2 ^ f.fracBits))) := by
  have hlog : v.log2 = e := by
    have hlo' := two_zpow_le_mul_iff (q := e - f.fracBits).mpr hlo
    have hhi' := mul_lt_two_zpow_iff (q := e - f.fracBits).mpr hhi
    rw [← hx, add_sub_cancel] at hlo'
    rw [← hx, Nat.cast_add, Nat.cast_one, add_right_comm, add_sub_cancel] at hhi'
    exact Mag.log2_eq h hn hd hlo' hhi'
  obtain ⟨hexact, hround⟩ := Mag.cut_of_eq_mul h hd hx
  rw [← hlog] at hexact hround hmin hmax
  rw [(roundTo_of_exact h hn hd tiny m neg hexact hmin hmax).1, Mag.steps, hround, hlog]

/-- Rounding a subnormal number of the format keeps it. -/
theorem roundTo_subnormal {n : Nat} (hx : x = n * 2 ^ (f.emin - f.fracBits)) (hlt : n < 2 ^ f.fracBits) :
    roundTo f tiny m neg v = FResult.quiet (packBits f neg n) := by
  have hlog : v.log2 < f.emin := by
    have hhi := mul_lt_two_zpow_iff (q := f.emin - f.fracBits).mpr hlt
    rw [← hx, add_sub_cancel] at hhi
    exact two_zpow_lt.mp ((Mag.log2_spec h hn hd).1.trans_lt hhi)
  have hexact : (v.cut (v.log2 - f.fracBits)).exact = true := Mag.cut_exact_of_le h hd hx (by omega)
  have hexp := Mag.roundedLog2_of_exact h hn hd (m := m) (neg := neg) hexact
  have htiny : f.tinyAt tiny v.log2 (v.roundedLog2 f m neg) = true := by
    rw [hexp]
    cases tiny <;> exact decide_eq_true hlog
  obtain ⟨hcut, hround⟩ := Mag.cut_of_eq_mul h hd hx
  have hbias := f.bias_pos
  rw [roundTo_of_tiny (by rw [hexp]; unfold Fmt.emax Fmt.emin at *; omega) htiny, hround, hcut]
  rfl

end

/-- Settles O51: the pattern is a normal or a subnormal one, and either is rounded to its own fields. -/
theorem roundingKeepsRepresentable : Obligations.RoundingKeepsRepresentable := by
  intro f tiny m b neg mant e hb hu hmant
  have his := Mag.dyadic_is mant e
  have hn := Mag.dyadic_num_pos hmant e
  have hd := Mag.dyadic_den_pos mant e
  have hfrac := fracField_lt f b
  obtain rfl := unpack_sign.1 hu
  conv_rhs => rw [← packBits_of_fields hb]
  rcases unpack_fin_cases hu with ⟨hex, hm, he⟩ | ⟨hpos, hmax, hm, he⟩
  · rw [hex, zero_mul, zero_add, ← hm]
    exact roundTo_subnormal his hn hd tiny m _ (by rw [he]) (hm.trans_lt hfrac)
  · rw [roundTo_normal his hn hd tiny m (signField f b) (e := expField f b - f.bias) (by rw [he]) (by omega)
      (by rw [pow_succ]; omega) (by unfold Fmt.emin; omega) (by rw [Fmt.expMax_eq] at hmax; unfold Fmt.emax; omega)]
    rw [show ((expField f b : ℤ) - f.bias + f.bias).toNat = expField f b by omega, hm, Nat.add_sub_cancel_left]

end Sys2Proof.Machine
end

section
/-! PROOFS. Conversions between floating point and integers, and between the formats (spec/46_fp_convert_move_compare.md R351 to
R370): the integer a finite operand is rounded to, the integer an instruction reads as a real number, and the fields of a
converted NaN. -/

namespace Sys2Proof.Machine

/-! ### To an integer (R351) -/

theorem setWidth_ofInt {w : Nat} (hw : w ≤ 64) (n : ℤ) : (BitVec.ofInt 64 n).setWidth w = BitVec.ofInt w n := by
  have hdvd : ((2 ^ w : Nat) : ℤ) ∣ (2 ^ 64 : Nat) := Int.natCast_dvd_natCast.mpr (Nat.pow_dvd_pow 2 hw)
  have hpos (k : Nat) : ((2 ^ k : Nat) : ℤ) ≠ 0 := by positivity
  apply BitVec.eq_of_toNat_eq
  rw [BitVec.toNat_setWidth, BitVec.toNat_ofInt, BitVec.toNat_ofInt, ← Nat.cast_inj (R := ℤ), Int.natCast_emod,
    Int.toNat_of_nonneg (Int.emod_nonneg _ (hpos 64)), Int.toNat_of_nonneg (Int.emod_nonneg _ (hpos w)),
    Int.emod_emod_of_dvd _ hdvd]

theorem roundsToInt_zero (m : RMode) : RoundsToInt m 0 0 := by
  cases m <;> simp [RoundsToInt]

/-- A finite operand is rounded to an integer, exactly where it is one. -/
theorem roundToIntegral_spec (m : RMode) (neg : Bool) (mant : Nat) (e : ℤ) :
    RoundsToInt m (finRat neg mant e : ℚ) (roundToIntegral m neg mant e).1 ∧
      ((roundToIntegral m neg mant e).2 = true ↔ ((roundToIntegral m neg mant e).1 : ℚ) = finRat neg mant e) := by
  unfold roundToIntegral
  split
  next h0 =>
    have hzero : finRat neg mant e = 0 := finRat_eq_zero_iff.mpr h0
    rw [hzero, Rat.cast_zero]
    exact ⟨roundsToInt_zero m, by simp⟩
  next h0 =>
    have hcut := Mag.cut_is (Mag.dyadic_is mant e) (Mag.dyadic_den_pos mant e) 0
    rw [zpow_zero, div_one] at hcut
    refine ⟨?_, ?_⟩
    · rw [finRat_eq_signedBy]
      exact hcut.roundsToInt_signedBy m neg
    · rw [← hcut.round_eq_iff m neg, ← Rat.cast_inj (α := ℝ), finRat_eq_signedBy, ← signedBy_inj neg]
      cases neg <;> simp

/-- A finite operand converts to the integer it is rounded to, unless that is out of range (R351). -/
theorem toInteger_fin (w : Nat) (isSigned : Bool) (m : RMode) (neg : Bool) (mant : Nat) (e : ℤ) :
    toInteger w isSigned m (.fin neg mant e) =
      if (roundToIntegral m neg mant e).1 < intLo w isSigned then .inl .underflow
      else if (roundToIntegral m neg mant e).1 > intHi w isSigned then .inl .overflow
      else .inr (roundToIntegral m neg mant e) :=
  rfl

theorem intLo_le_intHi (w : Nat) (isSigned : Bool) : intLo w isSigned ≤ intHi w isSigned := by
  have hhalf : (0 : ℤ) < 2 ^ (w - 1) := by positivity
  have hfull : (0 : ℤ) < 2 ^ w := by positivity
  cases isSigned <;> simp only [intLo, intHi, if_true, Bool.false_eq_true, if_false] <;> omega

section

variable {f : Fmt} {cfg : FPConfig} {w : Nat} {isSigned : Bool} {m : RMode} {a : Pattern}

theorem cvtToInt_of_invalid {kind : CvtInvalid} (h : toInteger w isSigned m (unpack f a) = .inl kind) :
    cvtToInt f cfg w isSigned m a = ⟨cvtInvalidBits cfg w isSigned kind, nvIf true⟩ := by
  simp only [cvtToInt, h]

theorem cvtToInt_of_valid {n : ℤ} {isExact : Bool} (h : toInteger w isSigned m (unpack f a) = .inr (n, isExact)) :
    cvtToInt f cfg w isSigned m a = ⟨BitVec.ofInt 64 n, { FFlags.none with nx := !isExact && cfg.cvtInexact }⟩ := by
  simp only [cvtToInt, h]

/-- The result `r` of a conversion to `w` bits is the integer of an invalid one, and raises NV alone. -/
def InvalidConversion {w : Nat} (r : FResult) (v : BitVec w) : Prop := r.bits.setWidth w = v ∧ r.flags = nvIf true

/-- What a conversion to an integer gives for operands of every kind, the invalid ones being those of the table `bad`. -/
theorem cvtToInt_results (f : Fmt) (m : RMode) (a : Pattern) {bad : InvalidInts w} (hw : w ≤ 64)
    (hbad : ∀ kind, (cvtInvalidBits cfg w isSigned kind).setWidth w = InvalidInts.of bad kind) :
    let r := cvtToInt f cfg w isSigned m a
    (isNaN f a = true → InvalidConversion r bad.nan) ∧
    (∀ neg, unpack f a = .inf neg → InvalidConversion r (if neg then bad.underflow else bad.overflow)) ∧
    ∀ x : ℚ, (unpack f a).toRat = some x → ∃ n : ℤ, RoundsToInt m x n ∧
      (n < intLo w isSigned → InvalidConversion r bad.underflow) ∧
      (intHi w isSigned < n → InvalidConversion r bad.overflow) ∧
      (intLo w isSigned ≤ n → n ≤ intHi w isSigned → r.bits.setWidth w = BitVec.ofInt w n ∧
        r.flags = { FFlags.none with nx := decide ((n : ℚ) ≠ x) && cfg.cvtInexact }) := by
  intro r
  have invalid {kind} (h : toInteger w isSigned m (unpack f a) = .inl kind) :
      InvalidConversion r (InvalidInts.of bad kind) := by
    rw [show r = _ from cvtToInt_of_invalid h]
    exact ⟨hbad kind, rfl⟩
  refine ⟨fun hnan => ?_, fun neg hinf => ?_, fun x hx => ?_⟩
  · exact invalid (by rw [unpack_of_isNaN hnan]; rfl)
  · have h := invalid (by rw [hinf]; rfl)
    cases neg <;> exact h
  · obtain ⟨mant, e, hfin, rfl⟩ := exists_fin_of_toRat hx
    obtain ⟨hround, hexact⟩ := roundToIntegral_spec m (signField f a) mant e
    have hto := toInteger_fin w isSigned m (signField f a) mant e
    rw [← hfin] at hto
    generalize roundToIntegral m (signField f a) mant e = n at hround hexact hto
    refine ⟨n.1, hround, fun hlo => ?_, fun hhi => ?_, fun hlo hhi => ?_⟩
    · exact invalid (hto.trans (if_pos hlo))
    · have hlo : intLo w isSigned ≤ n.1 := (intLo_le_intHi w isSigned).trans hhi.le
      exact invalid (hto.trans ((if_neg hlo.not_gt).trans (if_pos hhi)))
    · rw [show r = _ from cvtToInt_of_valid (hto.trans ((if_neg hlo.not_gt).trans (if_neg hhi.not_gt)))]
      refine ⟨setWidth_ofInt hw n.1, ?_⟩
      rw [show (!n.2) = decide ((n.1 : ℚ) ≠ finRat (signField f a) mant e) by
        rw [← Bool.coe_iff_coe, Bool.not_eq_true', ← Bool.not_eq_true, hexact, decide_eq_true_iff]]

end

/-- The integers of invalid conversions to 32 bits. -/
theorem cvtInvalidBits_word (cfg : FPConfig) (isSigned : Bool) (kind : CvtInvalid) :
    (cvtInvalidBits cfg 32 isSigned kind).setWidth 32 =
      InvalidInts.of (if isSigned then cfg.cvtInvalid.w else cfg.cvtInvalid.wu) kind :=
  (BitVec.setWidth_setWidth_of_le _ (by decide : 32 ≤ 64)).trans (BitVec.setWidth_eq _)

/-- The integers of invalid conversions to 64 bits. -/
theorem cvtInvalidBits_long (cfg : FPConfig) (isSigned : Bool) (kind : CvtInvalid) :
    (cvtInvalidBits cfg 64 isSigned kind).setWidth 64 =
      InvalidInts.of (if isSigned then cfg.cvtInvalid.l else cfg.cvtInvalid.lu) kind :=
  BitVec.setWidth_eq _

/-- Settles O55: the integer is the one that `cvtToInt` gives, in the low bits of `x[rd]`. -/
theorem floatToIntegerCompletes : Obligations.FloatToIntegerCompletes := by
  intro rd rs1 rm s m hm
  have done32 {i k r} (he : exec i s = withRM i rm s k) (hk : k m = putInt32 rd r s) :
      CompletesXFlags i rd (sext s.cfg.xlen (r.bits.setWidth 32)) r.flags s :=
    completesXFlags_of_putXFlags ((he.trans (withRM_some hm)).trans hk) (trunc_trunc _ _)
  have done64 (hx : s.cfg.xlen = .rv64) {i k r} (he : exec i s = rv64Only i s (withRM i rm s k))
      (hk : k m = putInt64 rd r s) : CompletesXFlags i rd r.bits r.flags s :=
    completesXFlags_of_putXFlags (((he.trans (rv64Only_rv64 hx)).trans (withRM_some hm)).trans hk) (by rw [hx, trunc_rv64])
  have results32 (f a isSigned) := cvtToInt_results f m a (by decide) (cvtInvalidBits_word s.cfg.fp isSigned)
  have results64 (f a isSigned) := cvtToInt_results f m a (by decide) (cvtInvalidBits_long s.cfg.fp isSigned)
  exact ⟨⟨_, done32 rfl rfl, results32 .single _ true⟩, ⟨_, done32 rfl rfl, results32 .single _ false⟩,
    ⟨_, done32 rfl rfl, results32 .double _ true⟩, ⟨_, done32 rfl rfl, results32 .double _ false⟩,
    fun hx => ⟨⟨_, done64 hx rfl rfl, results64 .single _ true⟩, ⟨_, done64 hx rfl rfl, results64 .single _ false⟩,
      ⟨_, done64 hx rfl rfl, results64 .double _ true⟩, ⟨_, done64 hx rfl rfl, results64 .double _ false⟩⟩⟩

/-! ### From an integer (R360) -/

/-- An integer that is not zero is rounded (R360). -/
theorem cvtFromInt_isRound (f : Fmt) (tiny : Tininess) (m : RMode) {n : ℤ} (h : n ≠ 0) :
    IsRound f tiny m n (cvtFromInt f tiny m n) := by
  have hround := roundTo_isRound f tiny m (decide (n < 0)) (Mag.dyadic_is n.natAbs 0)
    (Mag.dyadic_num_pos (Int.natAbs_ne_zero.mpr h) 0) (Mag.dyadic_den_pos n.natAbs 0)
  rwa [signedBy_natAbs, zpow_zero, mul_one, ← show cvtFromInt f tiny m n = _ from if_neg h] at hround

/-- Settles O56: the integer is the one that the form reads, and its conversion is `cvtFromInt`. -/
theorem integerToFloatCompletes : Obligations.IntegerToFloatCompletes := by
  refine ⟨fun rd rs1 rm s m hm => ?_, fun f tiny m n => ⟨cvtFromInt_isRound f tiny m, ?_⟩⟩
  · have doneS {i k r} (he : exec i s = withRM i rm s k) (hk : k m = putS rd r s) := completesFFlags_of_withRM_putS hm he hk
    have doneD {i k r} (he : exec i s = withRM i rm s k) (hk : k m = putD rd r s) := completesFFlags_of_withRM_putD hm he hk
    dsimp only
    rw [← s.readW_toInt, ← s.readW_toNat]
    refine ⟨doneS rfl rfl, doneS rfl rfl, doneD rfl rfl, doneD rfl rfl, fun hx => ?_⟩
    rw [show s.sx rs1 = (s.readX rs1).toInt by rw [← s.signed_readX, hx]; rfl]
    exact ⟨doneS (rv64Only_rv64 hx) rfl, doneS (rv64Only_rv64 hx) rfl, doneD (rv64Only_rv64 hx) rfl,
      doneD (rv64Only_rv64 hx) rfl⟩
  · rintro rfl
    exact ⟨zeroBits_represents f false, rfl⟩

/-! ### A converted NaN (R369, R370) -/

/-- Setting the top bit of a fraction keeps the others. -/
theorem or_two_pow {z k : Nat} (h : z < 2 ^ (k + 1)) : z ||| 2 ^ k = 2 ^ k + z % 2 ^ k := by
  have hlow : (z ||| 2 ^ k) % 2 ^ k = z % 2 ^ k := by simp [Nat.or_mod_two_pow]
  have hhigh : (z ||| 2 ^ k) / 2 ^ k = 1 := by
    have hz : z / 2 ^ k < 2 := Nat.div_lt_of_lt_mul (by rwa [← pow_succ])
    rw [Nat.or_div_two_pow, Nat.div_self (Nat.two_pow_pos k)]
    interval_cases z / 2 ^ k <;> rfl
  rw [← Nat.div_add_mod (z ||| 2 ^ k) (2 ^ k), hlow, hhigh, mul_one]

theorem extractLsb'_eq_iff {b : Pattern} {i n : Nat} {v : BitVec n} :
    b.extractLsb' i n = v ↔ b.toNat / 2 ^ i % 2 ^ n = v.toNat := by
  rw [← BitVec.toNat_inj, BitVec.extractLsb'_toNat, Nat.shiftRight_eq_div_pow]

/-- The pattern of a double NaN converted to single: the top 22 bits of the fraction below the quiet bit are kept (R369). -/
theorem cvtSofD_toNat_of_isNaN (cfg : FPConfig) (m : RMode) {a : Pattern} (h : isNaN .double a = true) :
    (cvtSofD cfg m a).bits.toNat =
      (if cvtNaNNeg cfg (signField .double a) then 2 ^ 31 else 0) + (0xFF * 2 ^ 23 + (2 ^ 22 + a.toNat / 2 ^ 29 % 2 ^ 22)) := by
  have hfrac : fracField .double a = a.toNat % 2 ^ 52 := rfl
  have hquiet : fracField .double a / 2 ^ 29 ||| 0x400000 = 2 ^ 22 + a.toNat / 2 ^ 29 % 2 ^ 22 :=
    (or_two_pow (k := 22) (by omega)).trans (by omega)
  simp only [cvtSofD, unpack_of_isNaN h, hquiet]
  exact packBits_toNat (by simp only [Fmt.width]; omega)

/-- The pattern of a single NaN converted to double: its fraction becomes the top of the wider one (R370). -/
theorem cvtDofS_toNat_of_isNaN (cfg : FPConfig) {a : Pattern} (h : isNaN .single a = true) :
    (cvtDofS cfg a).bits.toNat =
      (if cvtNaNNeg cfg (signField .single a) then 2 ^ 63 else 0) +
        (0x7FF * 2 ^ 52 + (2 ^ 22 + a.toNat % 2 ^ 22) * 2 ^ 29) := by
  have hfrac : fracField .single a = a.toNat % 2 ^ 23 := rfl
  have hquiet : fracField .single a ||| 0x400000 = 2 ^ 22 + a.toNat % 2 ^ 22 :=
    (or_two_pow (k := 22) (by omega)).trans (by omega)
  simp only [cvtDofS, unpack_of_isNaN h, hquiet]
  exact packBits_toNat (by simp only [Fmt.width]; omega)

theorem toNat_ofBool_eq (b : Bool) : (BitVec.ofBool b).toNat = if b then 1 else 0 := by
  cases b <;> rfl

/-- The fields of a double NaN converted to single. -/
theorem cvtSofD_of_isNaN (cfg : FPConfig) (m : RMode) {a : Pattern} (h : isNaN .double a = true) :
    let r := cvtSofD cfg m a
    r.bits.extractLsb' 31 1 = BitVec.ofBool (cvtNaNNeg cfg (signField .double a)) ∧ r.bits.extractLsb' 23 8 = 0xFF#8 ∧
      r.bits.extractLsb' 22 1 = 1#1 ∧ r.bits.extractLsb' 0 22 = a.extractLsb' 29 22 ∧
      r.flags = nvIf (isSignaling .double a) := by
  have hflags : (cvtSofD cfg m a).flags = nvIf (isSignaling .double a) := by simp only [cvtSofD, unpack_of_isNaN h]
  refine ⟨?_, ?_, ?_, ?_, hflags⟩ <;> rw [extractLsb'_eq_iff, cvtSofD_toNat_of_isNaN cfg m h]
  · rw [toNat_ofBool_eq]
    split <;> omega
  · rw [show (0xFF#8).toNat = 0xFF from rfl]
    split <;> omega
  · rw [show (1#1).toNat = 1 from rfl]
    split <;> omega
  · rw [BitVec.extractLsb'_toNat, Nat.shiftRight_eq_div_pow]
    split <;> omega

/-- The fields of a single NaN converted to double. -/
theorem cvtDofS_of_isNaN (cfg : FPConfig) {a : Pattern} (h : isNaN .single a = true) :
    let r := cvtDofS cfg a
    r.bits.extractLsb' 63 1 = BitVec.ofBool (cvtNaNNeg cfg (signField .single a)) ∧ r.bits.extractLsb' 52 11 = 0x7FF#11 ∧
      r.bits.extractLsb' 51 1 = 1#1 ∧ r.bits.extractLsb' 29 22 = a.extractLsb' 0 22 ∧ r.bits.extractLsb' 0 29 = 0#29 ∧
      r.flags = nvIf (isSignaling .single a) := by
  have hflags : (cvtDofS cfg a).flags = nvIf (isSignaling .single a) := by simp only [cvtDofS, unpack_of_isNaN h]
  refine ⟨?_, ?_, ?_, ?_, ?_, hflags⟩ <;> rw [extractLsb'_eq_iff, cvtDofS_toNat_of_isNaN cfg h]
  · rw [toNat_ofBool_eq]
    split <;> omega
  · rw [show (0x7FF#11).toNat = 0x7FF from rfl]
    split <;> omega
  · rw [show (1#1).toNat = 1 from rfl]
    split <;> omega
  · rw [BitVec.extractLsb'_toNat, Nat.shiftRight_eq_div_pow]
    split <;> omega
  · rw [show (0#29).toNat = 0 from rfl]
    split <;> omega

/-! ### Between the formats (R369, R370) -/

theorem cvtSofD_of_inf (cfg : FPConfig) (m : RMode) {a : Pattern} {n : Bool} (h : unpack .double a = .inf n) :
    GivesInf .single (cvtSofD cfg m a) n := by
  simp only [cvtSofD, h]
  exact ⟨infBits_represents .single n, rfl⟩

theorem cvtDofS_of_inf (cfg : FPConfig) {a : Pattern} {n : Bool} (h : unpack .single a = .inf n) :
    GivesInf .double (cvtDofS cfg a) n := by
  simp only [cvtDofS, h]
  exact ⟨infBits_represents .double n, rfl⟩

/-- A finite double is rounded to single, zeros keeping their sign. -/
theorem cvtSofD_of_toRat (cfg : FPConfig) (m : RMode) {a : Pattern} {x : ℚ} (h : (unpack .double a).toRat = some x) :
    (x ≠ 0 → IsRound .single cfg.tininess m x (cvtSofD cfg m a)) ∧
      (x = 0 → GivesZero .single (cvtSofD cfg m a) (signField .double a)) := by
  obtain ⟨mant, e, hfin, rfl⟩ := exists_fin_of_toRat h
  exact (isReal_ofFin _ mant e).result (by simp only [cvtSofD, hfin])

/-- The significands and exponents of the finite singles. -/
theorem single_fin_bounds {a : Pattern} {neg : Bool} {mant : Nat} {e : ℤ} (h : unpack .single a = .fin neg mant e) :
    mant < 2 ^ 24 ∧ -149 ≤ e ∧ e ≤ 104 := by
  have hfrac := fracField_lt .single a
  have hmax : Fmt.single.expMax = 255 := rfl
  rcases unpack_fin_cases h with ⟨-, hm, he⟩ | ⟨hpos, hlt, hm, he⟩ <;>
    simp only [Fmt.emin, Fmt.bias, Fmt.fracBits] at hfrac hm he <;> omega

/-- A single that is not zero is in the normal range of the doubles, and exact at their precision. -/
theorem single_exact_as_double {v : Mag} {mant : Nat} {e : ℤ} (h : v.Is (mant * 2 ^ e)) (hn : 0 < v.num) (hd : 0 < v.den)
    (hmant : 0 < mant) (hlt : mant < 2 ^ 24) (hmin : -149 ≤ e) (hmax : e ≤ 104) :
    (v.cut (v.log2 - Fmt.double.fracBits)).exact = true ∧ Fmt.double.emin ≤ v.log2 ∧ v.log2 ≤ Fmt.double.emax := by
  obtain ⟨hlo, hhi⟩ := Mag.log2_spec h hn hd
  have hlog : v.log2 < 24 + e := two_zpow_lt.mp (hlo.trans_lt (mul_lt_two_zpow_iff (k := 24).mpr hlt))
  have hlog' : e < v.log2 + 1 := by
    have hone := two_zpow_le_mul_iff (n := mant) (k := 0) (q := e).mpr hmant
    rw [Nat.cast_zero, zero_add] at hone
    exact two_zpow_lt.mp (hone.trans_lt hhi)
  refine ⟨Mag.cut_exact_of_le h hd rfl ?_, ?_, ?_⟩ <;> simp only [Fmt.fracBits, Fmt.emin, Fmt.emax, Fmt.bias] <;> omega

/-- Widening keeps the value of a finite single, and its sign (R370). -/
theorem cvtDofS_of_toRat (cfg : FPConfig) {a : Pattern} {x : ℚ} (h : (unpack .single a).toRat = some x) :
    Fmt.double.Represents (cvtDofS cfg a).bits (signField .single a) x ∧ (cvtDofS cfg a).flags = FFlags.none := by
  obtain ⟨mant, e, hfin, rfl⟩ := exists_fin_of_toRat h
  simp only [cvtDofS, hfin, FResult.quiet, and_true]
  rw [finRat_eq_signedBy]
  unfold Exact.ofFin
  split
  next h0 =>
    have hzero : signedBy (signField .single a) ((mant : ℝ) * 2 ^ e) = 0 := by
      rw [← finRat_eq_signedBy, finRat_eq_zero_iff.mpr h0, Rat.cast_zero]
    rw [hzero]
    exact zeroBits_represents ..
  next h0 =>
    have his := Mag.dyadic_is mant e
    have hn := Mag.dyadic_num_pos h0 e
    have hd := Mag.dyadic_den_pos mant e
    obtain ⟨hlt, hlo, hhi⟩ := single_fin_bounds hfin
    obtain ⟨hexact, hmin, hmax⟩ := single_exact_as_double his hn hd (Nat.pos_of_ne_zero h0) hlt hlo hhi
    exact (roundTo_of_exact his hn hd cfg.tininess .rne (signField .single a) hexact hmin hmax).2

/-- Settles O58: the instructions write `cvtSofD` and `cvtDofS` of the operand. -/
theorem formatConversionsComplete : Obligations.FormatConversionsComplete := fun _ _ _ s m hm =>
  ⟨_, _, completesFFlags_of_withRM_putS hm rfl rfl, completesFFlags_of_withRM_putD hm rfl rfl, rfl, rfl,
    cvtSofD_of_isNaN s.cfg.fp m, fun _ => cvtSofD_of_inf s.cfg.fp m, fun _ => cvtSofD_of_toRat s.cfg.fp m,
    cvtDofS_of_isNaN s.cfg.fp, fun _ => cvtDofS_of_inf s.cfg.fp, fun _ => cvtDofS_of_toRat s.cfg.fp⟩

end Sys2Proof.Machine
end

section
/-! PROOFS. Sign injection and the moves between the register files (spec/46_fp_convert_move_compare.md R371 to R382): the bits
of a pattern with another sign, and the low half of a moved word. -/

namespace Sys2Proof.Machine

/-! ### A pattern with another sign (R371) -/

theorem withSign_toNat (f : Fmt) (neg : Bool) (a : Pattern) :
    (withSign f neg a).toNat = (if neg then 2 ^ (f.width - 1) else 0) + a.toNat % 2 ^ (f.width - 1) :=
  packBits_toNat (Nat.mod_lt _ (Nat.two_pow_pos _))

/-- One bit above others, as a number. -/
theorem ofBool_append_toNat {n : Nat} (neg : Bool) (v : BitVec n) :
    (BitVec.ofBool neg ++ v).toNat = (if neg then 2 ^ n else 0) + v.toNat := by
  rw [BitVec.toNat_append, ← Nat.shiftLeft_add_eq_or_of_lt v.isLt, toNat_ofBool_eq]
  cases neg <;> simp [Nat.shiftLeft_eq]

theorem setWidth_withSign_single (neg : Bool) (a : BitVec 32) :
    (withSign .single neg (a.setWidth 64)).setWidth 32 = BitVec.ofBool neg ++ a.extractLsb' 0 31 := by
  apply BitVec.eq_of_toNat_eq
  rw [BitVec.toNat_setWidth, withSign_toNat, ofBool_append_toNat, BitVec.extractLsb'_toNat, BitVec.toNat_setWidth,
    Nat.shiftRight_zero]
  cases neg <;> simp only [Fmt.width, if_true, Bool.false_eq_true, if_false] <;> omega

theorem withSign_double (neg : Bool) (a : BitVec 64) :
    withSign .double neg a = BitVec.ofBool neg ++ a.extractLsb' 0 63 := by
  apply BitVec.eq_of_toNat_eq
  rw [withSign_toNat, ofBool_append_toNat, BitVec.extractLsb'_toNat, Nat.shiftRight_zero]
  rfl

theorem ofBool_getLsbD {w : Nat} (v : BitVec w) (k : Nat) : BitVec.ofBool (v.getLsbD k) = v.extractLsb' k 1 := by
  ext j hj
  obtain rfl : j = 0 := by omega
  simp

theorem signField_setWidth_single (v : BitVec 32) : signField .single (v.setWidth 64) = v.getLsbD 31 := by
  simp [signField, Fmt.width]

/-! ### The instructions -/

section

variable {i : Instr} {rd rs1 rs2 : Reg} {s : State} {sign : Bool → Bool → Bool} {v : BitVec 1}

/-- A single result of sign injection has the sign chosen, and the other bits of the first operand. -/
theorem completesF_of_injectS (he : exec i s = injectS rd rs1 rs2 sign s)
    (hv : BitVec.ofBool (sign ((s.readS 1 rs1).getLsbD 31) ((s.readS 2 rs2).getLsbD 31)) = v) :
    CompletesF i rd (.s (v ++ (s.readS 1 rs1).extractLsb' 0 31)) s := by
  apply completesF_of_putF
  rw [he, injectS, State.patS, State.patS, signField_setWidth_single, signField_setWidth_single, setWidth_withSign_single, hv]

/-- A double result of sign injection has the sign chosen, and the other bits of the first operand. -/
theorem completesF_of_injectD (he : exec i s = injectD rd rs1 rs2 sign s)
    (hv : BitVec.ofBool (sign ((s.readD 1 rs1).getLsbD 63) ((s.readD 2 rs2).getLsbD 63)) = v) :
    CompletesF i rd (.d (v ++ (s.readD 1 rs1).extractLsb' 0 63)) s := by
  subst hv
  apply completesF_of_putF
  rw [he, ← withSign_double]
  rfl

end

/-! ### The statements -/

/-- Settles O52: each form chooses its sign of the two operands' signs. -/
theorem signInjection : Obligations.SignInjection := by
  intro rd rs1 rs2 s
  dsimp only
  refine ⟨⟨fun _ => State.readS_of_single 1, fun _ => State.readS_of_single 2, ?_, ?_, ?_⟩,
    fun _ => State.readD_of_double 1, fun _ => State.readD_of_double 2, ?_, ?_, ?_⟩
  · exact completesF_of_injectS (sign := fun _ b => b) rfl (ofBool_getLsbD _ _)
  · exact completesF_of_injectS (sign := fun _ b => !b) rfl (by rw [← BitVec.not_ofBool, ofBool_getLsbD])
  · exact completesF_of_injectS (sign := fun a b => a ^^ b) rfl
      (by rw [← BitVec.ofBool_xor_ofBool, ofBool_getLsbD, ofBool_getLsbD])
  · exact completesF_of_injectD (sign := fun _ b => b) rfl (ofBool_getLsbD _ _)
  · exact completesF_of_injectD (sign := fun _ b => !b) rfl (by rw [← BitVec.not_ofBool, ofBool_getLsbD])
  · exact completesF_of_injectD (sign := fun a b => a ^^ b) rfl
      (by rw [← BitVec.ofBool_xor_ofBool, ofBool_getLsbD, ofBool_getLsbD])

/-- Settles O60: a word moved to `x[rd]` is sign-extended, and one moved to `f[rd]` is the low half. -/
theorem movesBetweenFiles : Obligations.MovesBetweenFiles := by
  refine fun rd rs s => ⟨completesX_of_putX rfl (trunc_trunc _ _) ⟨fun p hp => ?_, ?_⟩, completesF_of_putF rfl,
    fun hx => ⟨?_, ?_⟩⟩
  · rw [sext_setWidth, State.readS_of_single 2 hp]
  · exact signExtendedFrom_sext _ _ (by decide) s.cfg.xlen.thirtyTwo_le_bits
  · exact completesX_of_putX (rv64Only_rv64 hx) (by rw [hx, trunc_rv64]) fun _ => State.readD_of_double 2
  · exact completesF_of_putF (rv64Only_rv64 hx)

end Sys2Proof.Machine
end

section
/-! PROOFS. Comparisons (spec/46_fp_convert_move_compare.md R383 to R389): the order of operands that are no NaN is that of
their extended values. -/

namespace Sys2Proof.Machine

/-! ### Order by value (R383) -/

theorem FVal.extended_fin (neg : Bool) (mant : Nat) (e : ℤ) :
    (FVal.fin neg mant e).extended = some ((finRat neg mant e : WithTop ℚ) : WithBot (WithTop ℚ)) := rfl

/-- Finite operands are compared aligned to the smaller exponent. -/
theorem FVal.lt_fin_iff {na nb : Bool} {ma mb : Nat} {ea eb : ℤ} :
    (FVal.fin na ma ea).lt (.fin nb mb eb) = true ↔ finRat na ma ea < finRat nb mb eb := by
  have ha : _ = finRat na ma ea := alignTo_value na ma (min_le_left ea eb)
  have hb : _ = finRat nb mb eb := alignTo_value nb mb (min_le_right ea eb)
  rw [← ha, ← hb, mul_lt_mul_iff_left₀ (by positivity), Int.cast_lt]
  exact decide_eq_true_iff

theorem coe_coe_lt_top (q : ℚ) : ((q : WithTop ℚ) : WithBot (WithTop ℚ)) < ⊤ :=
  WithBot.coe_lt_coe.mpr (WithTop.coe_lt_top q)

section

variable {v w : FVal} {x y : WithBot (WithTop ℚ)}

theorem FVal.ne_nan_of_extended (hv : v.extended = some x) : v ≠ .nan := by
  rintro rfl
  cases hv

/-- An operand is less than another just where its value is, the infinities being the extremes. -/
theorem FVal.lt_iff_extended (hv : v.extended = some x) (hw : w.extended = some y) : v.lt w = true ↔ x < y := by
  cases v with
  | nan => cases hv
  | inf na =>
    cases w with
    | nan => cases hw
    | inf nb => cases na <;> cases nb <;> cases hv <;> cases hw <;> simp [FVal.lt]
    | fin nb mb eb => cases na <;> cases hv <;> cases hw <;> simp [FVal.lt]
  | fin na ma ea =>
    rw [FVal.extended_fin] at hv
    cases hv
    cases w with
    | nan => cases hw
    | inf nb => cases nb <;> cases hw <;> simp [FVal.lt, coe_coe_lt_top]
    | fin nb mb eb =>
      rw [FVal.extended_fin] at hw
      cases hw
      rw [FVal.lt_fin_iff, WithBot.coe_lt_coe, WithTop.coe_lt_coe]

theorem FVal.eqv_of_ne_nan (hv : v ≠ .nan) (hw : w ≠ .nan) : v.eqv w = (!v.lt w && !w.lt v) := by
  unfold FVal.eqv
  split
  · exact absurd rfl hv
  · exact absurd rfl hw
  · rfl

/-- Operands are equal just where their values are. -/
theorem FVal.eqv_iff_extended (hv : v.extended = some x) (hw : w.extended = some y) : v.eqv w = true ↔ x = y := by
  rw [FVal.eqv_of_ne_nan (FVal.ne_nan_of_extended hv) (FVal.ne_nan_of_extended hw), Bool.and_eq_true, Bool.not_eq_true',
    Bool.not_eq_true', ← Bool.not_eq_true, ← Bool.not_eq_true, FVal.lt_iff_extended hv hw, FVal.lt_iff_extended hw hv,
    not_lt, not_lt, and_comm]
  exact le_antisymm_iff.symm

end

/-- A NaN is related to nothing. -/
theorem FVal.eqv_lt_of_nan {v w : FVal} (h : v = .nan ∨ w = .nan) : v.eqv w = false ∧ v.lt w = false := by
  rcases h with rfl | rfl
  · exact ⟨rfl, rfl⟩
  · cases v <;> exact ⟨rfl, rfl⟩

/-- What the comparisons give, for operands of every kind. -/
theorem comparison_results (f : Fmt) (a b : Pattern) :
    let eq := (unpack f a).eqv (unpack f b)
    let lt := (unpack f a).lt (unpack f b)
    let le := lt || eq
    ((isNaN f a || isNaN f b) = true → eq = false ∧ lt = false ∧ le = false) ∧
    ∀ x y, (unpack f a).extended = some x → (unpack f b).extended = some y →
      (eq = true ↔ x = y) ∧ (lt = true ↔ x < y) ∧ (le = true ↔ x ≤ y) := by
  intro eq lt le
  refine ⟨fun hnan => ?_, fun x y hx hy => ?_⟩
  · rw [Bool.or_eq_true] at hnan
    obtain ⟨heq, hlt⟩ := FVal.eqv_lt_of_nan (hnan.imp unpack_of_isNaN unpack_of_isNaN)
    exact ⟨heq, hlt, Bool.or_eq_false_iff.mpr ⟨hlt, heq⟩⟩
  · have heq : eq = true ↔ x = y := FVal.eqv_iff_extended hx hy
    have hlt : lt = true ↔ x < y := FVal.lt_iff_extended hx hy
    exact ⟨heq, hlt, by rw [Bool.or_eq_true, heq, hlt, le_iff_lt_or_eq]⟩

/-- Settles O54: the instructions write the results of the comparison of their operands in either format. -/
theorem fpComparisons : Obligations.FpComparisons := by
  intro rd rs1 rs2 s
  have done {i b fl} (he : exec i s = putXFlags rd (ofBool b) fl s) : CompletesXFlags i rd (ofBool b) fl s :=
    completesXFlags_of_putXFlags he (trunc_ofBool _ b)
  exact ⟨⟨_, _, _, done rfl, done rfl, done rfl, comparison_results .single (s.patS 1 rs1) (s.patS 2 rs2)⟩,
    ⟨_, _, _, done rfl, done rfl, done rfl, comparison_results .double (s.patD 1 rs1) (s.patD 2 rs2)⟩⟩

end Sys2Proof.Machine
end

section
/-! PROOFS. Conversions that are exact (spec/46_fp_convert_move_compare.md R360 to R368, R370): a magnitude whose significand has
no more bits than the format is cut exactly at its last bit. -/

namespace Sys2Proof.Machine

/-! ### Short magnitudes -/

section

variable {v : Mag} {x : ℝ} (h : v.Is x) (hn : 0 < v.num) (hd : 0 < v.den) {f : Fmt} {n : Nat} {q : ℤ}
  (hx : x = n * 2 ^ q)

include h hn hd hx

/-- A magnitude of fewer bits than the precision of the format is cut exactly at its last bit. -/
theorem Mag.cut_exact_of_lt (hlt : n < 2 ^ (f.fracBits + 1)) : (v.cut (v.log2 - f.fracBits)).exact = true := by
  have hlog : v.log2 < (f.fracBits + 1 : Nat) + q :=
    two_zpow_lt.mp ((Mag.log2_spec h hn hd).1.trans_lt (hx ▸ mul_lt_two_zpow_iff.mpr hlt))
  exact Mag.cut_exact_of_le h hd hx (by omega)

/-- So is the next power of two, which has one significant bit. -/
theorem Mag.cut_exact_of_short (hle : n ≤ 2 ^ (f.fracBits + 1)) : (v.cut (v.log2 - f.fracBits)).exact = true := by
  rcases hle.lt_or_eq with hlt | rfl
  · exact Mag.cut_exact_of_lt h hn hd hx hlt
  · refine Mag.cut_exact_of_lt h hn hd (n := 1) (q := (f.fracBits + 1 : Nat) + q) ?_ (Nat.one_lt_two_pow (by omega))
    rw [hx, two_zpow_add, zpow_natCast]
    push_cast
    rw [one_mul]

end

/-! ### Integers (R360) -/

/-- The integers of a source register are in the normal range of either format. -/
theorem Mag.log2_mem_of_integer {v : Mag} {k : Nat} (h : v.Is k) (hn : 0 < v.num) (hd : 0 < v.den) (hpos : 0 < k)
    (hlt : k < 2 ^ 64) (f : Fmt) : f.emin ≤ v.log2 ∧ v.log2 ≤ f.emax := by
  obtain ⟨hlo, hhi⟩ := Mag.log2_spec h hn hd
  have hone : (2 : ℝ) ^ (0 : ℤ) ≤ k := by exact_mod_cast hpos
  have htop : (k : ℝ) < 2 ^ (64 : ℤ) := by exact_mod_cast hlt
  have hmin : 0 < v.log2 + 1 := two_zpow_lt.mp (hone.trans_lt hhi)
  have hmax : v.log2 < 64 := two_zpow_lt.mp (hlo.trans_lt htop)
  cases f <;> simp only [Fmt.emin, Fmt.emax, Fmt.bias] <;> omega

/-- An integer that has no more significant bits than the format converts to its own value. -/
theorem cvtFromInt_of_short (f : Fmt) (tiny : Tininess) (m : RMode) {k : ℤ} {j : Nat}
    (hk : k.natAbs ≤ 2 ^ (f.fracBits + 1)) (hlt : (k * 2 ^ j).natAbs < 2 ^ 64) :
    f.Represents (cvtFromInt f tiny m (k * 2 ^ j)).bits (decide (k * 2 ^ j < 0)) (k * 2 ^ j : ℤ) ∧
      (cvtFromInt f tiny m (k * 2 ^ j)).flags = FFlags.none := by
  have habs : ((k * 2 ^ j).natAbs : ℝ) = k.natAbs * 2 ^ (j : ℤ) := by
    rw [Int.natAbs_mul, Int.natAbs_pow]
    push_cast
    rfl
  have hvalue := signedBy_natAbs (k * 2 ^ j) 1
  rw [mul_one, mul_one] at hvalue
  generalize k * 2 ^ j = n at hlt habs hvalue ⊢
  by_cases h0 : n = 0
  · subst h0
    exact ⟨by simpa [cvtFromInt, FResult.quiet] using zeroBits_represents f false, rfl⟩
  · have hpos : n.natAbs ≠ 0 := Int.natAbs_ne_zero.mpr h0
    have his := Mag.dyadic_is n.natAbs 0
    rw [zpow_zero, mul_one] at his
    have hn := Mag.dyadic_num_pos hpos 0
    have hd := Mag.dyadic_den_pos n.natAbs 0
    obtain ⟨hmin, hmax⟩ := Mag.log2_mem_of_integer his hn hd (Nat.pos_of_ne_zero hpos) hlt f
    obtain ⟨hquiet, hrep⟩ := roundTo_of_exact his hn hd tiny m (decide (n < 0))
      (Mag.cut_exact_of_short his hn hd habs hk) hmin hmax
    rw [show cvtFromInt f tiny m n = _ from if_neg h0]
    exact ⟨hvalue ▸ hrep, by rw [hquiet]; rfl⟩

/-! ### The statements -/

/-- Settles O57: the precision of the format bounds the significant bits. -/
theorem shortIntegersConvertExactly : Obligations.ShortIntegersConvertExactly := by
  intro f tiny m k j n hk hlo hhi
  exact cvtFromInt_of_short f tiny m (by cases f <;> exact hk) (by omega)

/-- Settles O59: widening a finite single is exact, and an infinity stays one. -/
theorem wideningKeepsValue : Obligations.WideningKeepsValue := fun cfg _ =>
  ⟨fun _ => cvtDofS_of_toRat cfg, fun _ => cvtDofS_of_inf cfg⟩

end Sys2Proof.Machine
end

section
/-! PROOFS. SYSCALL and BREAK (spec/48_system.md R431, R432): each is its exception and nothing more, so what stops at one is
what stops at the trap entry. -/

namespace Sys2Proof.Machine

/-! ### A trap that the environment answers with Stop -/

/-- An exception answered with Stop hands its record over and halts the thread (R480). -/
theorem raise_of_stop {e : Exc} {s : State} (h : s.outcome ⟨e, s.readPc⟩ = .stop) :
    raise e s = .next { s with traps := ⟨e, s.readPc⟩ :: s.traps, halted := true } := by
  obtain ⟨t, ht⟩ := raise_next e s
  rcases raise_cases ht with ⟨-, rfl⟩ | ⟨r, hresume, -⟩
  · exact ht
  · cases h.symm.trans hresume

/-! ### The statement -/

theorem exec_syscall (s : State) : exec .syscall s = raise .syscall s := rfl

theorem exec_brk (s : State) : exec .brk s = raise .breakpoint s := rfl

/-- Settles O43: both instructions are the trap entry, with an exception of their own. -/
theorem syscallAndBreakTrap : Obligations.SyscallAndBreakTrap := fun s =>
  ⟨exec_syscall s, exec_brk s, fun h => (exec_syscall s).trans (raise_of_stop h),
    fun h => (exec_brk s).trans (raise_of_stop h)⟩

end Sys2Proof.Machine
end

section
/-! PROOFS. Exceptions (spec/60_exceptions.md R480 to R483): a trap that the environment stops at leaves the machine as it was
but for the record; one it resumes leaves each place with the last write of the resumption, else as it was. -/

namespace Sys2Proof.Machine

/-! ### The writes of a resumption -/

/-- After updates that each write the place `k` or leave it, it holds what the last update of it wrote, else what it held. -/
theorem foldl_last_write {β γ : Type} (k : Reg) (get : State → γ) (val : State → β → γ) (upd : State → Reg × β → State)
    (val_upd : ∀ u p v, val (upd u p) v = val u v)
    (get_upd : ∀ u p, get (upd u p) = if k = p.1 then val u p.2 else get u) (l : List (Reg × β)) (s : State) :
    get (l.foldl upd s) = (l.reverse.find? fun p => p.1 == k).elim (get s) fun p => val s p.2 := by
  induction l generalizing s with
  | nil => rfl
  | cons p l ih =>
    rw [List.foldl_cons, ih, List.reverse_cons, List.find?_append]
    cases l.reverse.find? (fun p => p.1 == k) with
    | some q => exact val_upd s p q.2
    | none =>
      rw [Option.none_or]
      by_cases h : k = p.1
      · simp [get_upd, h]
      · simp [get_upd, h, Ne.symm h]

/-- The writes of x registers, in the order of the list. -/
def State.writeXs (s : State) (l : List (Reg × XWord)) : State := l.foldl (fun s p => s.writeX p.1 p.2) s

/-- The writes of f registers, in the order of the list. -/
def State.writeFs (s : State) (l : List (Reg × FReg)) : State := l.foldl (fun s p => s.writeF p.1 p.2) s

/-- What writes of x registers keep. -/
theorem State.writeXs_keeps {β : Type} (get : State → β) (keepX : ∀ u rd v, get (State.writeX u rd v) = get u) (s : State)
    (l : List (Reg × XWord)) : get (s.writeXs l) = get s :=
  foldl_keeps get (fun s (p : Reg × XWord) => s.writeX p.1 p.2) (fun u p => keepX u p.1 p.2) l s

/-- What writes of f registers keep. -/
theorem State.writeFs_keeps {β : Type} (get : State → β) (keepF : ∀ u rd v, get (State.writeF u rd v) = get u) (s : State)
    (l : List (Reg × FReg)) : get (s.writeFs l) = get s :=
  foldl_keeps get (fun s (p : Reg × FReg) => s.writeF p.1 p.2) (fun u p => keepF u p.1 p.2) l s

/-- The last write of an x register stands. -/
theorem State.readX_writeXs (s : State) (l : List (Reg × XWord)) {reg : Reg} (h0 : reg ≠ 0) :
    (s.writeXs l).readX reg =
      (l.reverse.find? fun p => p.1 == reg).elim (s.readX reg) fun p => trunc s.cfg.xlen p.2 := by
  have hwrite (u : State) (p : Reg × XWord) :
      (u.writeX p.1 p.2).readX reg = if reg = p.1 then trunc u.cfg.xlen p.2 else u.readX reg := by
    have hiff : reg = p.1 ∧ p.1 ≠ 0 ↔ reg = p.1 := and_iff_left_of_imp fun h => h ▸ h0
    simp only [State.readX_writeX, hiff]
  exact foldl_last_write reg (·.readX reg) (fun u v => trunc u.cfg.xlen v) (fun u p => u.writeX p.1 p.2)
    (fun u p v => by rw [State.writeX_cfg]) hwrite l s

/-- The last write of an f register stands. -/
theorem State.readF_writeFs (s : State) (l : List (Reg × FReg)) (reg : Reg) :
    (s.writeFs l).readF reg = (l.reverse.find? fun p => p.1 == reg).elim (s.readF reg) fun p => p.2 :=
  foldl_last_write reg (·.readF reg) (fun _ v => v) (fun u p => u.writeF p.1 p.2) (fun _ _ _ => rfl)
    (fun u p => u.readF_writeF p.1 reg p.2) l s

/-- What a byte reads after bytes are stored at addresses taken modulo `n`. -/
theorem State.read_storeBytes_wrapped (s : State) (cells : List Host.Cell) (n a : Nat) :
    Memory.read (s.storeBytes (cells.map fun c => (c.1 % n, c.2))).mem a =
      match cells.reverse.find? (fun c => c.1 % n == a) with
      | some c => c.2
      | none => Memory.read s.mem a := by
  have hfind : (cells.map fun c => (c.1 % n, c.2)).reverse.find? (fun c => c.1 == a) =
      (cells.reverse.find? fun c => c.1 % n == a).map fun c => (c.1 % n, c.2) := by
    rw [← List.map_reverse, List.find?_map]
    rfl
  rw [State.read_storeBytes, hfind]
  cases cells.reverse.find? fun c => c.1 % n == a <;> rfl

/-! ### The state after a resumption -/

/-- The state once the registers and `fsr` of a resumption are written; `State.resume_eq` ties it to the resumption. -/
def State.resumeRegs (s : State) (r : Resumption) : State :=
  match r.fsr with
  | some v => ((s.writeXs r.x).writeFs r.f).writeFsr v
  | none => (s.writeXs r.x).writeFs r.f

theorem State.resume_eq (s : State) (r : Resumption) :
    s.resume r =
      let u := (s.resumeRegs r).storeBytes (r.mem.map fun c => (c.1 % 2 ^ (s.resumeRegs r).cfg.xlen.bits, c.2))
      { u with
        pc := trunc u.cfg.xlen r.pc
        instret := u.instret + r.retired
        stale := if r.syncsFetch then [] else u.stale } := rfl

/-- What a write of `fsr` keeps is as the register writes left it. -/
theorem State.resumeRegs_of_fsr {β : Type} (get : State → β) (keepFsr : ∀ u v, get (State.writeFsr u v) = get u) (s : State)
    (r : Resumption) : get (s.resumeRegs r) = get ((s.writeXs r.x).writeFs r.f) := by
  unfold State.resumeRegs
  cases r.fsr with
  | none => rfl
  | some v => exact keepFsr _ v

/-- What register writes and a write of `fsr` keep. -/
theorem State.resumeRegs_keeps {β : Type} (get : State → β) (keepX : ∀ u rd v, get (State.writeX u rd v) = get u)
    (keepF : ∀ u rd v, get (State.writeF u rd v) = get u) (keepFsr : ∀ u v, get (State.writeFsr u v) = get u) (s : State)
    (r : Resumption) : get (s.resumeRegs r) = get s :=
  calc get (s.resumeRegs r)
    _ = get ((s.writeXs r.x).writeFs r.f) := s.resumeRegs_of_fsr get keepFsr r
    _ = get (s.writeXs r.x) := State.writeFs_keeps get keepF _ r.f
    _ = get s := s.writeXs_keeps get keepX r.x

theorem State.resumeRegs_cfg (s : State) (r : Resumption) : (s.resumeRegs r).cfg = s.cfg :=
  s.resumeRegs_keeps State.cfg State.writeX_cfg (fun _ _ _ => rfl) (fun _ _ => rfl) r

theorem State.resumeRegs_mem (s : State) (r : Resumption) : (s.resumeRegs r).mem = s.mem :=
  s.resumeRegs_keeps State.mem State.writeX_mem (fun _ _ _ => rfl) (fun _ _ => rfl) r

theorem State.resumeRegs_instret (s : State) (r : Resumption) : (s.resumeRegs r).instret = s.instret :=
  s.resumeRegs_keeps State.instret State.writeX_instret (fun _ _ _ => rfl) (fun _ _ => rfl) r

/-- The environment adds the instructions it counts (R482; log entry 29). -/
theorem State.resume_instret (s : State) (r : Resumption) : (s.resume r).instret = s.instret + r.retired := by
  rw [State.resume_eq]
  simp only [State.storeBytes_instret, State.resumeRegs_instret]

/-- The last write of each x register stands. -/
theorem State.readX_resume (s : State) (r : Resumption) {reg : Reg} (h0 : reg ≠ 0) :
    (s.resume r).readX reg =
      match r.x.reverse.find? (fun p => p.1 == reg) with
      | some p => trunc s.cfg.xlen p.2
      | none => s.readX reg := by
  calc (s.resume r).readX reg
    _ = (s.resumeRegs r).readX reg := State.readX_congr (State.storeBytes_cfg ..) (State.storeBytes_x ..) reg
    _ = ((s.writeXs r.x).writeFs r.f).readX reg := s.resumeRegs_of_fsr (·.readX reg) (fun _ _ => rfl) r
    _ = (s.writeXs r.x).readX reg := State.writeFs_keeps (·.readX reg) (fun _ _ _ => rfl) _ r.f
    _ = (r.x.reverse.find? fun p => p.1 == reg).elim (s.readX reg) fun p => trunc s.cfg.xlen p.2 := s.readX_writeXs r.x h0
    _ = _ := by cases r.x.reverse.find? fun p => p.1 == reg <;> rfl

/-- The last write of each f register stands. -/
theorem State.readF_resume (s : State) (r : Resumption) (reg : Reg) :
    (s.resume r).readF reg =
      match r.f.reverse.find? (fun p => p.1 == reg) with
      | some p => p.2
      | none => s.readF reg := by
  have hx : (s.writeXs r.x).readF reg = s.readF reg :=
    s.writeXs_keeps (·.readF reg) (fun _ _ _ => State.readF_congr (State.writeX_f ..) reg) r.x
  calc (s.resume r).readF reg
    _ = (s.resumeRegs r).readF reg := State.readF_congr (State.storeBytes_f ..) reg
    _ = ((s.writeXs r.x).writeFs r.f).readF reg := s.resumeRegs_of_fsr (·.readF reg) (fun _ _ => rfl) r
    _ = (r.f.reverse.find? fun p => p.1 == reg).elim (s.readF reg) fun p => p.2 := hx ▸ State.readF_writeFs ..
    _ = _ := by cases r.f.reverse.find? fun p => p.1 == reg <;> rfl

/-- `fsr` reads as the environment wrote it, else as before (R38). -/
theorem State.readFsr_resume (s : State) (r : Resumption) :
    (s.resume r).readFsr = match r.fsr with | some v => v &&& fsrMask | none => s.readFsr := by
  have hmem : (s.resume r).fsr = (s.resumeRegs r).fsr := State.storeBytes_fsr ..
  have hregs : ((s.writeXs r.x).writeFs r.f).fsr = s.fsr :=
    (State.writeFs_keeps State.fsr (fun _ _ _ => rfl) _ r.f).trans (s.writeXs_keeps State.fsr State.writeX_fsr r.x)
  rw [State.readFsr, State.readFsr, hmem, State.resumeRegs]
  cases r.fsr with
  | none => exact congrArg (· &&& fsrMask) hregs
  | some v => exact (BitVec.and_assoc ..).trans (congrArg (v &&& ·) BitVec.and_self)

/-- The last byte the environment wrote at an address stands (log entry 30). -/
theorem State.read_resume (s : State) (r : Resumption) (a : Nat) :
    Memory.read (s.resume r).mem a =
      match r.mem.reverse.find? (fun c => c.1 % s.modulus == a) with
      | some c => c.2
      | none => Memory.read s.mem a := by
  rw [State.resume_eq]
  dsimp only
  rw [State.read_storeBytes_wrapped, State.resumeRegs_mem, State.resumeRegs_cfg]
  rfl

/-! ### The answer of the environment -/

/-- The default `TrapHandler` answers every record with Stop (R9, R480). -/
theorem State.outcome_of_default {s : State} (h : s.handler = TrapHandler.default) (rec' : TrapRecord) :
    s.outcome rec' = .stop := by
  unfold State.outcome
  rw [h]
  rfl

/-- The environment does not see the records of earlier traps (R483). -/
theorem State.outcome_of_traps (s : State) (earlier : List TrapRecord) (rec' : TrapRecord) :
    State.outcome { s with traps := earlier } rec' = s.outcome rec' := rfl

/-- An exception answered with a resumption hands its record over and makes the writes of the resumption (R480, R482). -/
theorem raise_of_resume {e : Exc} {s : State} {r : Resumption} (h : s.outcome ⟨e, s.readPc⟩ = .resume r) :
    raise e s = .next (State.resume { s with traps := ⟨e, s.readPc⟩ :: s.traps } r) := by
  obtain ⟨t, ht⟩ := raise_next e s
  rcases raise_cases ht with ⟨hstop, -⟩ | ⟨r', hr', rfl⟩
  · cases h.symm.trans hstop
  · cases h.symm.trans hr'
    exact ht

/-- A stopped thread has no step (R529; log entry 13). -/
theorem step_of_halted {s : State} (h : s.halted = true) : step s = .fault .halted := if_pos h

/-! ### The start of a run -/

/-- A run starts with the invariant when what the environment chose and loaded has it: the fetch view is empty (R520 to R527). -/
theorem State.Inv.start {cfg : Config} {handler : TrapHandler} {x : Vector XWord 32} {f : Vector FReg 32} {resetPc : XWord}
    {fsrReset : BitVec 32} {cycle time instretStart : Nat} {m0 : Memory}
    (hx : ∀ r : Fin 32, fits cfg.xlen x[r] = true) (hx0 : x[0] = 0) (hpc : fits cfg.xlen resetPc = true)
    (hfsr : fsrReset &&& fsrMask = fsrReset) (hmem : Memory.wf m0 = true)
    (haddr : m0.all (fun c => decide (c.1 < 2 ^ cfg.xlen.bits)) = true)
    (hclocks : cfg.xlen = .rv64 → cycle < 2 ^ 64 ∧ time < 2 ^ 64) :
    (State.start cfg handler x f resetPc fsrReset cycle time instretStart m0).Inv where
  xFits := hx
  x0 := hx0
  pcFits := hpc
  fsrBits := hfsr
  memWf := hmem
  memAddr := haddr
  staleRising := rfl
  staleAddr := rfl
  clocks := hclocks

/-- 0 fits in any number of bits. -/
theorem fits_zero (xl : Xlen) : fits xl 0 = true := decide_eq_true (Nat.two_pow_pos _)

/-! ### The statements -/

/-- Settles O10: the resumption is of the state of the trap with the record handed over, and each place is read by its law. -/
theorem resumeFromTrap : Obligations.ResumeFromTrap := by
  intro e s r h
  refine ⟨fun earlier => (s.outcome_of_traps earlier _).trans h, _, raise_of_resume h, ?_⟩
  exact ⟨State.resume_traps .., State.resume_handler .., State.resume_halted .., State.resume_cfg .., State.resume_pc ..,
    State.resume_instret .., fun _ h0 => State.readX_resume _ r h0, State.readF_resume _ r, State.readFsr_resume _ r,
    State.read_resume _ r, State.resume_cycle .., State.resume_time ..⟩

/-- Settles O9: Stop marks the thread halted, which has no step. -/
theorem stopAtTrap : Obligations.StopAtTrap := fun _ _ =>
  ⟨fun hdefault => State.outcome_of_default hdefault _, fun hstop => ⟨_, raise_of_stop hstop, rfl, step_of_halted rfl⟩⟩

/-- Settles O12: reset is the start of a run with zeros in every place, and zeros have the invariant. -/
theorem resetHasInvariant : Obligations.ResetHasInvariant := by
  have hx (r : Fin 32) : fits Config.default.xlen (Vector.replicate 32 (0 : XWord))[r] = true := by
    rw [Fin.getElem_fin, Vector.getElem_replicate]
    exact fits_zero _
  have hinv : State.reset.Inv :=
    .start hx rfl (fits_zero _) (BitVec.zero_and ..) rfl rfl fun _ => ⟨Nat.two_pow_pos 64, Nat.two_pow_pos 64⟩
  exact ⟨hinv, rfl, rfl, rfl, rfl, rfl⟩

end Sys2Proof.Machine
end
